-- ==== Sys2Proof/Word.lean ====
section
/-! DEFINITION. The two word types of the block (00_scope.md R12): a byte is 8 bits, a word 32 bits. -/

namespace Sys2Proof

/-- A byte: a codeword, a field element, an opcode. -/
abbrev Byte := BitVec 8

/-- A register value or a command word. -/
abbrev Word := BitVec 32

end Sys2Proof
end

