-- ==== Sys2Proof/Machine/Tables.lean ====
section
/-! DEFINITION. The constant tables of 41_ec_encoder.md (R80, R82, R84) and 42_matrix_builder.md (R94), embedded as data.
Tables are constants, not state (10_state.md R17). -/

namespace Sys2Proof.Machine

/-- One row of the block table (R84). -/
structure BlockRow where
  e  : Nat
  n1 : Nat
  k1 : Nat
  n2 : Nat
  k2 : Nat
deriving DecidableEq, Repr

/-- The row of no configuration. -/
def BlockRow.absent : BlockRow := ⟨0, 0, 0, 0, 0⟩

/-- R84, versions 1 to 10: for each version the rows of L, M, Q and H. -/
def blockRows1to10 : List (List BlockRow) :=
  [[⟨7, 1, 19, 0, 0⟩, ⟨10, 1, 16, 0, 0⟩, ⟨13, 1, 13, 0, 0⟩, ⟨17, 1, 9, 0, 0⟩],
   [⟨10, 1, 34, 0, 0⟩, ⟨16, 1, 28, 0, 0⟩, ⟨22, 1, 22, 0, 0⟩, ⟨28, 1, 16, 0, 0⟩],
   [⟨15, 1, 55, 0, 0⟩, ⟨26, 1, 44, 0, 0⟩, ⟨18, 2, 17, 0, 0⟩, ⟨22, 2, 13, 0, 0⟩],
   [⟨20, 1, 80, 0, 0⟩, ⟨18, 2, 32, 0, 0⟩, ⟨26, 2, 24, 0, 0⟩, ⟨16, 4, 9, 0, 0⟩],
   [⟨26, 1, 108, 0, 0⟩, ⟨24, 2, 43, 0, 0⟩, ⟨18, 2, 15, 2, 16⟩, ⟨22, 2, 11, 2, 12⟩],
   [⟨18, 2, 68, 0, 0⟩, ⟨16, 4, 27, 0, 0⟩, ⟨24, 4, 19, 0, 0⟩, ⟨28, 4, 15, 0, 0⟩],
   [⟨20, 2, 78, 0, 0⟩, ⟨18, 4, 31, 0, 0⟩, ⟨18, 2, 14, 4, 15⟩, ⟨26, 4, 13, 1, 14⟩],
   [⟨24, 2, 97, 0, 0⟩, ⟨22, 2, 38, 2, 39⟩, ⟨22, 4, 18, 2, 19⟩, ⟨26, 4, 14, 2, 15⟩],
   [⟨30, 2, 116, 0, 0⟩, ⟨22, 3, 36, 2, 37⟩, ⟨20, 4, 16, 4, 17⟩, ⟨24, 4, 12, 4, 13⟩],
   [⟨18, 2, 68, 2, 69⟩, ⟨26, 4, 43, 1, 44⟩, ⟨24, 6, 19, 2, 20⟩, ⟨28, 6, 15, 2, 16⟩]]

/-- R84, versions 11 to 20: for each version the rows of L, M, Q and H. -/
def blockRows11to20 : List (List BlockRow) :=
  [[⟨20, 4, 81, 0, 0⟩, ⟨30, 1, 50, 4, 51⟩, ⟨28, 4, 22, 4, 23⟩, ⟨24, 3, 12, 8, 13⟩],
   [⟨24, 2, 92, 2, 93⟩, ⟨22, 6, 36, 2, 37⟩, ⟨26, 4, 20, 6, 21⟩, ⟨28, 7, 14, 4, 15⟩],
   [⟨26, 4, 107, 0, 0⟩, ⟨22, 8, 37, 1, 38⟩, ⟨24, 8, 20, 4, 21⟩, ⟨22, 12, 11, 4, 12⟩],
   [⟨30, 3, 115, 1, 116⟩, ⟨24, 4, 40, 5, 41⟩, ⟨20, 11, 16, 5, 17⟩, ⟨24, 11, 12, 5, 13⟩],
   [⟨22, 5, 87, 1, 88⟩, ⟨24, 5, 41, 5, 42⟩, ⟨30, 5, 24, 7, 25⟩, ⟨24, 11, 12, 7, 13⟩],
   [⟨24, 5, 98, 1, 99⟩, ⟨28, 7, 45, 3, 46⟩, ⟨24, 15, 19, 2, 20⟩, ⟨30, 3, 15, 13, 16⟩],
   [⟨28, 1, 107, 5, 108⟩, ⟨28, 10, 46, 1, 47⟩, ⟨28, 1, 22, 15, 23⟩, ⟨28, 2, 14, 17, 15⟩],
   [⟨30, 5, 120, 1, 121⟩, ⟨26, 9, 43, 4, 44⟩, ⟨28, 17, 22, 1, 23⟩, ⟨28, 2, 14, 19, 15⟩],
   [⟨28, 3, 113, 4, 114⟩, ⟨26, 3, 44, 11, 45⟩, ⟨26, 17, 21, 4, 22⟩, ⟨26, 9, 13, 16, 14⟩],
   [⟨28, 3, 107, 5, 108⟩, ⟨26, 3, 41, 13, 42⟩, ⟨30, 15, 24, 5, 25⟩, ⟨28, 15, 15, 10, 16⟩]]

/-- R84, versions 21 to 30: for each version the rows of L, M, Q and H. -/
def blockRows21to30 : List (List BlockRow) :=
  [[⟨28, 4, 116, 4, 117⟩, ⟨26, 17, 42, 0, 0⟩, ⟨28, 17, 22, 6, 23⟩, ⟨30, 19, 16, 6, 17⟩],
   [⟨28, 2, 111, 7, 112⟩, ⟨28, 17, 46, 0, 0⟩, ⟨30, 7, 24, 16, 25⟩, ⟨24, 34, 13, 0, 0⟩],
   [⟨30, 4, 121, 5, 122⟩, ⟨28, 4, 47, 14, 48⟩, ⟨30, 11, 24, 14, 25⟩, ⟨30, 16, 15, 14, 16⟩],
   [⟨30, 6, 117, 4, 118⟩, ⟨28, 6, 45, 14, 46⟩, ⟨30, 11, 24, 16, 25⟩, ⟨30, 30, 16, 2, 17⟩],
   [⟨26, 8, 106, 4, 107⟩, ⟨28, 8, 47, 13, 48⟩, ⟨30, 7, 24, 22, 25⟩, ⟨30, 22, 15, 13, 16⟩],
   [⟨28, 10, 114, 2, 115⟩, ⟨28, 19, 46, 4, 47⟩, ⟨28, 28, 22, 6, 23⟩, ⟨30, 33, 16, 4, 17⟩],
   [⟨30, 8, 122, 4, 123⟩, ⟨28, 22, 45, 3, 46⟩, ⟨30, 8, 23, 26, 24⟩, ⟨30, 12, 15, 28, 16⟩],
   [⟨30, 3, 117, 10, 118⟩, ⟨28, 3, 45, 23, 46⟩, ⟨30, 4, 24, 31, 25⟩, ⟨30, 11, 15, 31, 16⟩],
   [⟨30, 7, 116, 7, 117⟩, ⟨28, 21, 45, 7, 46⟩, ⟨30, 1, 23, 37, 24⟩, ⟨30, 19, 15, 26, 16⟩],
   [⟨30, 5, 115, 10, 116⟩, ⟨28, 19, 47, 10, 48⟩, ⟨30, 15, 24, 25, 25⟩, ⟨30, 23, 15, 25, 16⟩]]

/-- R84, versions 31 to 40: for each version the rows of L, M, Q and H. -/
def blockRows31to40 : List (List BlockRow) :=
  [[⟨30, 13, 115, 3, 116⟩, ⟨28, 2, 46, 29, 47⟩, ⟨30, 42, 24, 1, 25⟩, ⟨30, 23, 15, 28, 16⟩],
   [⟨30, 17, 115, 0, 0⟩, ⟨28, 10, 46, 23, 47⟩, ⟨30, 10, 24, 35, 25⟩, ⟨30, 19, 15, 35, 16⟩],
   [⟨30, 17, 115, 1, 116⟩, ⟨28, 14, 46, 21, 47⟩, ⟨30, 29, 24, 19, 25⟩, ⟨30, 11, 15, 46, 16⟩],
   [⟨30, 13, 115, 6, 116⟩, ⟨28, 14, 46, 23, 47⟩, ⟨30, 44, 24, 7, 25⟩, ⟨30, 59, 16, 1, 17⟩],
   [⟨30, 12, 121, 7, 122⟩, ⟨28, 12, 47, 26, 48⟩, ⟨30, 39, 24, 14, 25⟩, ⟨30, 22, 15, 41, 16⟩],
   [⟨30, 6, 121, 14, 122⟩, ⟨28, 6, 47, 34, 48⟩, ⟨30, 46, 24, 10, 25⟩, ⟨30, 2, 15, 64, 16⟩],
   [⟨30, 17, 122, 4, 123⟩, ⟨28, 29, 46, 14, 47⟩, ⟨30, 49, 24, 10, 25⟩, ⟨30, 24, 15, 46, 16⟩],
   [⟨30, 4, 122, 18, 123⟩, ⟨28, 13, 46, 32, 47⟩, ⟨30, 48, 24, 14, 25⟩, ⟨30, 42, 15, 32, 16⟩],
   [⟨30, 20, 117, 4, 118⟩, ⟨28, 40, 47, 7, 48⟩, ⟨30, 43, 24, 22, 25⟩, ⟨30, 10, 15, 67, 16⟩],
   [⟨30, 19, 118, 6, 119⟩, ⟨28, 18, 47, 31, 48⟩, ⟨30, 34, 24, 34, 25⟩, ⟨30, 20, 15, 61, 16⟩]]

/-- The block table of R84: row V − 1, column CFG.ECL. -/
def blockTable : List (List BlockRow) :=
  blockRows1to10 ++ blockRows11to20 ++ blockRows21to30 ++ blockRows31to40

/-- raw(V) of R82 for V = 1 … 40: the modules left for codewords. -/
def rawTable : List Nat :=
  [208, 359, 567, 807, 1079, 1383, 1568, 1936, 2336, 2768,
   3232, 3728, 4256, 4651, 5243, 5867, 6523, 7211, 7931, 8683,
   9252, 10068, 10916, 11796, 12708, 13652, 14628, 15371, 16411, 17483,
   18587, 19723, 20891, 22091, 23008, 24272, 25568, 26896, 28256, 29648]

/-- The alignment coordinates P(V) of R94 for V = 1 … 40. -/
def alignTable : List (List Nat) :=
  [[], [6, 18], [6, 22], [6, 26],
   [6, 30], [6, 34], [6, 22, 38], [6, 24, 42],
   [6, 26, 46], [6, 28, 50], [6, 30, 54], [6, 32, 58],
   [6, 34, 62], [6, 26, 46, 66], [6, 26, 48, 70], [6, 26, 50, 74],
   [6, 30, 54, 78], [6, 30, 56, 82], [6, 30, 58, 86], [6, 34, 62, 90],
   [6, 28, 50, 72, 94], [6, 26, 50, 74, 98], [6, 30, 54, 78, 102], [6, 28, 54, 80, 106],
   [6, 32, 58, 84, 110], [6, 30, 58, 86, 114], [6, 34, 62, 90, 118], [6, 26, 50, 74, 98, 122],
   [6, 30, 54, 78, 102, 126], [6, 26, 52, 78, 104, 130], [6, 30, 56, 82, 108, 134], [6, 34, 60, 86, 112, 138],
   [6, 30, 58, 86, 114, 142], [6, 34, 62, 90, 118, 146], [6, 30, 54, 78, 102, 126, 150], [6, 24, 50, 76, 102, 128, 154],
   [6, 28, 54, 80, 106, 132, 158], [6, 32, 58, 84, 110, 136, 162], [6, 26, 54, 82, 110, 138, 166], [6, 30, 58, 86, 114, 142, 170]]

/-- R80: EXP[0] … EXP[63]. -/
def expRows0 : List Byte :=
  [0x01, 0x02, 0x04, 0x08, 0x10, 0x20, 0x40, 0x80, 0x1D, 0x3A, 0x74, 0xE8, 0xCD, 0x87, 0x13, 0x26,
   0x4C, 0x98, 0x2D, 0x5A, 0xB4, 0x75, 0xEA, 0xC9, 0x8F, 0x03, 0x06, 0x0C, 0x18, 0x30, 0x60, 0xC0,
   0x9D, 0x27, 0x4E, 0x9C, 0x25, 0x4A, 0x94, 0x35, 0x6A, 0xD4, 0xB5, 0x77, 0xEE, 0xC1, 0x9F, 0x23,
   0x46, 0x8C, 0x05, 0x0A, 0x14, 0x28, 0x50, 0xA0, 0x5D, 0xBA, 0x69, 0xD2, 0xB9, 0x6F, 0xDE, 0xA1]

/-- R80: EXP[64] … EXP[127]. -/
def expRows1 : List Byte :=
  [0x5F, 0xBE, 0x61, 0xC2, 0x99, 0x2F, 0x5E, 0xBC, 0x65, 0xCA, 0x89, 0x0F, 0x1E, 0x3C, 0x78, 0xF0,
   0xFD, 0xE7, 0xD3, 0xBB, 0x6B, 0xD6, 0xB1, 0x7F, 0xFE, 0xE1, 0xDF, 0xA3, 0x5B, 0xB6, 0x71, 0xE2,
   0xD9, 0xAF, 0x43, 0x86, 0x11, 0x22, 0x44, 0x88, 0x0D, 0x1A, 0x34, 0x68, 0xD0, 0xBD, 0x67, 0xCE,
   0x81, 0x1F, 0x3E, 0x7C, 0xF8, 0xED, 0xC7, 0x93, 0x3B, 0x76, 0xEC, 0xC5, 0x97, 0x33, 0x66, 0xCC]

/-- R80: EXP[128] … EXP[191]. -/
def expRows2 : List Byte :=
  [0x85, 0x17, 0x2E, 0x5C, 0xB8, 0x6D, 0xDA, 0xA9, 0x4F, 0x9E, 0x21, 0x42, 0x84, 0x15, 0x2A, 0x54,
   0xA8, 0x4D, 0x9A, 0x29, 0x52, 0xA4, 0x55, 0xAA, 0x49, 0x92, 0x39, 0x72, 0xE4, 0xD5, 0xB7, 0x73,
   0xE6, 0xD1, 0xBF, 0x63, 0xC6, 0x91, 0x3F, 0x7E, 0xFC, 0xE5, 0xD7, 0xB3, 0x7B, 0xF6, 0xF1, 0xFF,
   0xE3, 0xDB, 0xAB, 0x4B, 0x96, 0x31, 0x62, 0xC4, 0x95, 0x37, 0x6E, 0xDC, 0xA5, 0x57, 0xAE, 0x41]

/-- R80: EXP[192] … EXP[255]. -/
def expRows3 : List Byte :=
  [0x82, 0x19, 0x32, 0x64, 0xC8, 0x8D, 0x07, 0x0E, 0x1C, 0x38, 0x70, 0xE0, 0xDD, 0xA7, 0x53, 0xA6,
   0x51, 0xA2, 0x59, 0xB2, 0x79, 0xF2, 0xF9, 0xEF, 0xC3, 0x9B, 0x2B, 0x56, 0xAC, 0x45, 0x8A, 0x09,
   0x12, 0x24, 0x48, 0x90, 0x3D, 0x7A, 0xF4, 0xF5, 0xF7, 0xF3, 0xFB, 0xEB, 0xCB, 0x8B, 0x0B, 0x16,
   0x2C, 0x58, 0xB0, 0x7D, 0xFA, 0xE9, 0xCF, 0x83, 0x1B, 0x36, 0x6C, 0xD8, 0xAD, 0x47, 0x8E, 0x01]

/-- The antilog table of R80: EXP[i] = α^i. -/
def expTable : List Byte := expRows0 ++ expRows1 ++ expRows2 ++ expRows3

/-- R80: LOG[1] … LOG[64]. -/
def logRows0 : List Nat :=
  [0, 1, 25, 2, 50, 26, 198, 3, 223, 51, 238, 27, 104, 199, 75, 4,
   100, 224, 14, 52, 141, 239, 129, 28, 193, 105, 248, 200, 8, 76, 113, 5,
   138, 101, 47, 225, 36, 15, 33, 53, 147, 142, 218, 240, 18, 130, 69, 29,
   181, 194, 125, 106, 39, 249, 185, 201, 154, 9, 120, 77, 228, 114, 166, 6]

/-- R80: LOG[65] … LOG[128]. -/
def logRows1 : List Nat :=
  [191, 139, 98, 102, 221, 48, 253, 226, 152, 37, 179, 16, 145, 34, 136, 54,
   208, 148, 206, 143, 150, 219, 189, 241, 210, 19, 92, 131, 56, 70, 64, 30,
   66, 182, 163, 195, 72, 126, 110, 107, 58, 40, 84, 250, 133, 186, 61, 202,
   94, 155, 159, 10, 21, 121, 43, 78, 212, 229, 172, 115, 243, 167, 87, 7]

/-- R80: LOG[129] … LOG[192]. -/
def logRows2 : List Nat :=
  [112, 192, 247, 140, 128, 99, 13, 103, 74, 222, 237, 49, 197, 254, 24, 227,
   165, 153, 119, 38, 184, 180, 124, 17, 68, 146, 217, 35, 32, 137, 46, 55,
   63, 209, 91, 149, 188, 207, 205, 144, 135, 151, 178, 220, 252, 190, 97, 242,
   86, 211, 171, 20, 42, 93, 158, 132, 60, 57, 83, 71, 109, 65, 162, 31]

/-- R80: LOG[193] … LOG[255]. -/
def logRows3 : List Nat :=
  [45, 67, 216, 183, 123, 164, 118, 196, 23, 73, 236, 127, 12, 111, 246, 108,
   161, 59, 82, 41, 157, 85, 170, 251, 96, 134, 177, 187, 204, 62, 90, 203,
   89, 95, 176, 156, 169, 160, 81, 11, 245, 22, 235, 122, 117, 44, 215, 79,
   174, 213, 233, 230, 231, 173, 232, 116, 214, 244, 234, 168, 80, 88, 175]

/-- The log table of R80, from LOG[1] on (LOG[0] is undefined). -/
def logTable : List Nat := logRows0 ++ logRows1 ++ logRows2 ++ logRows3

end Sys2Proof.Machine
end

