-- ==== Sys2Proof/Machine/Field.lean ====
section
/-! DEFINITION. GF(256) arithmetic (41_ec_encoder.md R77 to R80), the generator polynomials (R81) and the Reed–Solomon
remainder (R87). -/

namespace Sys2Proof.Machine

/-- Field addition and subtraction (R78). -/
def gfadd (a b : Byte) : Byte := a ^^^ b

/-- One round of R79 for bit `i` of b: shift the 9-bit intermediate, reduce by 0x11D, add a. -/
def gfmulRound (a b : Byte) (r : BitVec 9) (i : Nat) : BitVec 9 :=
  let shifted := r <<< 1
  let reduced := if shifted.getLsbD 8 then shifted ^^^ 0x11D else shifted
  if b.getLsbD i then reduced ^^^ a.setWidth 9 else reduced

/-- Field multiplication (R79). -/
def gfmul (a b : Byte) : Byte := ([7, 6, 5, 4, 3, 2, 1, 0].foldl (gfmulRound a b) 0).setWidth 8

/-- α^i for the primitive element α = 0x02 (R80). -/
def alphaPow : Nat → Byte
  | 0 => 0x01
  | i + 1 => gfmul (alphaPow i) 0x02

/-- EXP[i] of the antilog table (R80). -/
def gfExp (i : Nat) : Byte := expTable.getD i 0

/-- LOG[b] of the log table (R80); undefined for 0. -/
def gfLog (b : Byte) : Option Nat := if b = 0 then none else logTable[b.toNat - 1]?

/-- Multiplication by the tables (R80): EXP[(LOG[a] + LOG[b]) mod 255], or 0 when a factor is 0. -/
def gfmulByTables (a b : Byte) : Byte :=
  match gfLog a, gfLog b with
  | some i, some j => gfExp ((i + j) % 255)
  | _, _ => 0

/-- Multiply a polynomial, highest degree first, by (x + root) (the loop body of R81). -/
def mulLinear (g : List Byte) (root : Byte) : List Byte :=
  List.zipWith gfadd (g ++ [0]) (0 :: g.map fun x => gfmul x root)

/-- The generator polynomial g_E, highest degree first (R81). -/
def genpoly (e : Nat) : List Byte := (List.range e).foldl (fun g i => mulLinear g (alphaPow i)) [0x01]

/-- One round of the shift register of R87: the feedback, the shift by one codeword, and the products of `taps`
(G[1 .. E]). -/
def remRound (taps rem : List Byte) (d : Byte) : List Byte :=
  let f := gfadd d (rem.headD 0)
  List.zipWith (fun r g => gfadd r (gfmul g f)) (rem.tail ++ [0]) taps

/-- The E error-correction codewords of a block (R87). -/
def rsRemainder (d : List Byte) (e : Nat) : List Byte :=
  d.foldl (remRound (genpoly e).tail) (List.replicate e 0)

/-- The value at `x` of a polynomial with its highest coefficient first. -/
def polyEval (p : List Byte) (x : Byte) : Byte := p.foldl (fun acc c => gfadd (gfmul acc x) c) 0

end Sys2Proof.Machine
end

