-- ==== Sys2Proof/Syntax.lean ====
section
/-! DEFINITION. The nine commands, the raw command word, and what reaches the block from outside. -/

namespace Sys2Proof

/-- The nine commands of 30_encoding.md R64, one constructor for each row of spec/opcode_table.json. No command carries
an operand (R63). -/
inductive Instr where
  | nop
  | softReset
  | rsEncode
  | interleave
  | buildFunc
  | place
  | score
  | finalize
  | run
deriving DecidableEq, Repr

/-- Any 32-bit word as the one format of R62 splits it, legal or not. -/
structure RawCommand where
  rsvd : BitVec 24
  opc  : Byte
deriving DecidableEq, Repr

/-- One host access (20_memory.md R45), in the syntax of R67: a read or write of 1, 2 or 4 bytes at a 17-bit address. -/
inductive HostAccess where
  | rd8  (addr : BitVec 17)
  | rd16 (addr : BitVec 17)
  | rd32 (addr : BitVec 17)
  | wr8  (addr : BitVec 17) (v : BitVec 8)
  | wr16 (addr : BitVec 17) (v : BitVec 16)
  | wr32 (addr : BitVec 17) (v : Word)
deriving DecidableEq, Repr

/-- What happens next (log 1): a host access, an opportunity for the engine's completion step (R71), or the reset input
(R138). -/
inductive Event where
  | host (a : HostAccess)
  | engine
  | hardReset
deriving DecidableEq, Repr

end Sys2Proof
end

