-- ==== Sys2Proof/WellFormed.lean ====
section
/-! DEFINITION. Which command words and commands are well formed (30_encoding.md R62, R64). -/

namespace Sys2Proof

/-- The nine opcodes of R64. -/
def legalOpcodes : List Byte := [0x00, 0x01, 0x10, 0x11, 0x20, 0x21, 0x22, 0x23, 0x30]

/-- The check RSVD = 0 of R62. -/
def RawCommand.reservedZero (c : RawCommand) : Bool := c.rsvd == 0

/-- The check that OPC is one of the nine opcodes (R62). -/
def RawCommand.opcodeLegal (c : RawCommand) : Bool := legalOpcodes.contains c.opc

/-- `legal(w)` of R62 on the split word. -/
def RawCommand.wellFormed (c : RawCommand) : Bool := c.reservedZero && c.opcodeLegal

/-- A command has no fields (R63), so every command is well formed. -/
def Instr.wellFormed : Instr → Bool
  | .nop => true
  | .softReset => true
  | .rsEncode => true
  | .interleave => true
  | .buildFunc => true
  | .place => true
  | .score => true
  | .finalize => true
  | .run => true

end Sys2Proof
end

