-- ==== Sys2Proof/Decode.lean ====
section
/-! DEFINITION. Decoding of command words and their encoder (30_encoding.md R62 to R66). -/

namespace Sys2Proof

/-- Why a word is no command (R65). -/
inductive DecodeError where
  /-- RSVD ≠ 0. -/
  | reservedNonzero
  /-- RSVD = 0 and OPC is none of the nine opcodes. -/
  | undefinedOpcode
deriving DecidableEq, Repr

/-- The OPC column of R64. -/
def opcode : Instr → Byte
  | .nop => 0x00
  | .softReset => 0x01
  | .rsEncode => 0x10
  | .interleave => 0x11
  | .buildFunc => 0x20
  | .place => 0x21
  | .score => 0x22
  | .finalize => 0x23
  | .run => 0x30

/-- The table of R64 read by opcode. -/
def opcodeMap : List (Byte × Instr) :=
  [(0x00, .nop), (0x01, .softReset), (0x10, .rsEncode), (0x11, .interleave), (0x20, .buildFunc), (0x21, .place),
   (0x22, .score), (0x23, .finalize), (0x30, .run)]

/-- The command an opcode stands for, if it is one of the nine. -/
def ofOpcode (opc : Byte) : Option Instr := (opcodeMap.find? (fun row => row.1 == opc)).map (·.2)

/-- The one format of R62: OPC in bits [7:0], RSVD in bits [31:8]. -/
def splitWord (w : Word) : RawCommand := ⟨w.extractLsb' 8 24, w.extractLsb' 0 8⟩

/-- The word whose fields are given. -/
def joinWord (c : RawCommand) : Word := c.rsvd ++ c.opc

/-- Decoding is total (R66): a legal word is its command, every other word is rejected by name (R65). -/
def decode (w : Word) : Except DecodeError Instr :=
  let c := splitWord w
  if c.reservedZero then
    match ofOpcode c.opc with
    | some i => .ok i
    | none => .error .undefinedOpcode
  else .error .reservedNonzero

/-- The command word of a command (R62, R64): its opcode with RSVD = 0. -/
def encode (i : Instr) : Word := joinWord ⟨0, opcode i⟩

/-- The command that the low `nbits` bits of `w`, every bit above them 0, decode to. -/
def decodeTableWord (nbits w : Nat) : Option Instr := (decode (BitVec.ofNat 32 (w % 2 ^ nbits))).toOption

end Sys2Proof
end

