-- ==== Sys2Proof/Config.lean ====
section
/-! DEFINITION. What the spec fixes for the block (00_scope.md R10) and the values it leaves open (R11, 93 A7, A9, A10). -/

namespace Sys2Proof.Config

/-- VMAX: the largest symbol version (R10). -/
def vMax : Nat := 40

/-- SIDE_MAX: MATRIX stores 177 × 177 cells (R10, R40). -/
def sideMax : Nat := 177

/-- The size of DBUF, of ECBUF and of CWBUF in bytes (R10). -/
def bufSize : Nat := 4096

/-- The base addresses of the regions of 20_memory.md R46. -/
def dbufBase : Nat := 0x01000
def ecbufBase : Nat := 0x02000
def cwbufBase : Nat := 0x03000
def matrixBase : Nat := 0x10000

/-- The address just past the host address space (R45: 17 bits). -/
def addrEnd : Nat := 0x20000

/-- The constant of the ID register (R20). -/
def idValue : Word := 0x51520007

/-- POWER_ON_RAM (R11, R138): what the storage byte at a host address holds after the `epoch`-th hardware reset until
something is written there. A free value: nothing constrains it (log 5). -/
opaque powerOnRam (epoch addr : Nat) : Byte

/-- Unspecified contents (R124, R140): what the storage byte at a host address holds after the `draw`-th event that leaves
its region unspecified. A free value: nothing constrains it (log 6). -/
opaque unspecified (draw addr : Nat) : Byte

end Sys2Proof.Config
end

