-- ==== Sys2Proof/Machine/State.lean ====
section
/-! DEFINITION. The state of the block (10_state.md R17 to R42), its reset value (70_reset_and_hazards.md R138), and the
named updates of it. -/

namespace Sys2Proof.Machine

/-- STATUS.PHASE (R33). Value 7 is never taken (93 A3), so it has no constructor. -/
inductive Phase where
  | idle | ecDone | ilDone | funcDone | placed | scored | final
deriving DecidableEq, Repr

/-- STATUS.ERRCODE (60_exceptions.md R122). Codes 5 to 15 are never produced (93 A2), so they have no constructor. -/
inductive ErrCode where
  | none | illegalCmd | cfgInvalid | sequence | internal
deriving DecidableEq, Repr

/-- CFG (R21). Its reserved bits are RAZ/WI and have no storage. -/
structure Cfg where
  version : BitVec 6
  ecl     : BitVec 2
deriving DecidableEq, Repr

/-- The stored fields of STATUS (R24). IRQ is a function of the state (R36). -/
structure Status where
  busy    : Bool
  done    : Bool
  err     : Bool
  errcode : ErrCode
  mask    : BitVec 3
  phase   : Phase
deriving DecidableEq, Repr

/-- IEN (R26). -/
structure Ien where
  doneIe : Bool
  errIe  : Bool
deriving DecidableEq, Repr

/-- ERRINFO (R27). -/
structure ErrInfo where
  opc     : Byte
  phaseAt : Phase
  inRun   : Bool
deriving DecidableEq, Repr

/-- PEN[m][0 .. 3] of one mask m (R31). -/
structure Penalties where
  p1 : Word
  p2 : Word
  p3 : Word
  p4 : Word
deriving DecidableEq, Repr

/-- The four planes of one matrix cell (R41). -/
structure Cell where
  set  : Bool
  func : Bool
  rsv  : Bool
  dark : Bool
deriving DecidableEq, Repr

/-- The answer of the port to one access (20_memory.md R45): OK or SLVERR, and for a read its data, zero-extended (0 with
SLVERR, R129). A write has no data. -/
structure Response where
  slverr : Bool
  data   : Option Word
deriving DecidableEq, Repr

/-- The block's storage: bytes by host address, addresses strictly rising. An address that is not listed holds no value
yet (log 5). -/
abbrev Memory := List Host.Cell

/-- The architectural state (R17) and the model's own fields (log 1, 4, 7). -/
structure State where
  /-- CFG (R21). -/
  cfg      : Cfg
  /-- STATUS (R24). -/
  status   : Status
  /-- IEN (R26). -/
  ien      : Ien
  /-- ERRINFO (R27). -/
  errinfo  : ErrInfo
  /-- PEN[0..7][0..3] (R31). -/
  pen      : Vector Penalties 8
  /-- PENTOT[0..7] (R32). -/
  pentot   : Vector Word 8
  /-- CUR_OP (R34). -/
  curOp    : Byte
  /-- DBUF, ECBUF, CWBUF and MATRIX (R37 to R41), by host address (log 8). -/
  mem      : Memory
  /-- The model's own: which draw of POWER_ON_RAM an unlisted byte shows (log 5). -/
  powerOns : Nat
  /-- The model's own: the next draw of unspecified contents (log 6). -/
  draws    : Nat
  /-- The model's own: the events still to come (log 1). -/
  script   : List Event
  /-- The model's own: the answer to the last host access (log 4). -/
  resp     : Option Response
deriving DecidableEq, Repr

/-- Why the machine stops. -/
inductive Fault where
  /-- Raised by an engine step with BUSY = 1 and a CUR_OP that no accepted command leaves there (R34). No run reaches
  such a state; safe: the model stops where no rule says anything (log 9). -/
  | strayCurOp
deriving DecidableEq, Repr

/-- Why an instruction has no meaning. -/
inductive Refusal where
  /-- Raised by an arm of `exec` for a command that has no meaning yet; no arm raises it now. Safe. -/
  | notModelled (mnemonic : String)
deriving DecidableEq, Repr

/-- The machine right after hardware reset (R138): every register at the value of the table, the storage with nothing
listed (POWER_ON_RAM), and the model's own fields empty or 0 (log 7). -/
def State.reset : State where
  cfg := ⟨0, 0⟩
  status := ⟨false, false, false, .none, 0, .idle⟩
  ien := ⟨false, false⟩
  errinfo := ⟨0, .idle, false⟩
  pen := Vector.replicate 8 ⟨0, 0, 0, 0⟩
  pentot := Vector.replicate 8 0
  curOp := 0x00
  mem := []
  powerOns := 0
  draws := 0
  script := []
  resp := none

/-! The named updates: each writes the field or fields of its name and nothing else. -/

def State.setCfg (s : State) (c : Cfg) : State := { s with cfg := c }
def State.setStatus (s : State) (t : Status) : State := { s with status := t }
def State.setIen (s : State) (e : Ien) : State := { s with ien := e }
def State.setErrinfo (s : State) (e : ErrInfo) : State := { s with errinfo := e }
def State.setScores (s : State) (p : Vector Penalties 8) (t : Vector Word 8) : State := { s with pen := p, pentot := t }
def State.setCurOp (s : State) (o : Byte) : State := { s with curOp := o }
def State.setMem (s : State) (m : Memory) : State := { s with mem := m }
def State.setDraws (s : State) (n : Nat) : State := { s with draws := n }
def State.setScript (s : State) (l : List Event) : State := { s with script := l }
def State.setResp (s : State) (r : Response) : State := { s with resp := some r }

end Sys2Proof.Machine
end

