-- ==== Sys2Proof/Machine/Ops.lean ====
section
/-! DEFINITION. The shared operations: the storage, matrix cells and grids, the port's answers, unspecified contents,
command errors and the return from them, acceptance and completion of a command, SOFT_RESET and hardware reset. -/

namespace Sys2Proof.Machine

/-! ### Phases and error codes as numbers -/

/-- The coding of PHASE (R33). -/
def Phase.code : Phase → Nat
  | .idle => 0 | .ecDone => 1 | .ilDone => 2 | .funcDone => 3 | .placed => 4 | .scored => 5 | .final => 6

/-- The coding of ERRCODE (R122). -/
def ErrCode.code : ErrCode → Nat
  | .none => 0 | .illegalCmd => 1 | .cfgInvalid => 2 | .sequence => 3 | .internal => 4

/-! ### Storage -/

/-- The byte the list holds at an address; `none` where nothing is listed. -/
def Memory.lookup : Memory → Nat → Option Byte
  | [], _ => none
  | (k, b) :: m, a => if k = a then some b else Memory.lookup m a

/-- Bytes at consecutive addresses from `base`. -/
def Memory.number : Nat → List Byte → Memory
  | _, [] => []
  | base, b :: bs => (base, b) :: Memory.number (base + 1) bs

/-- Store consecutive bytes from `base`, replacing what those addresses held. -/
def Memory.storeBlock (m : Memory) (base : Nat) (bs : List Byte) : Memory :=
  m.filter (fun c => c.1 < base) ++ Memory.number base bs ++ m.filter (fun c => base + bs.length ≤ c.1)

/-- The part of the list inside a range of addresses. -/
def Memory.slice (m : Memory) (base len : Nat) : Memory := m.filter (fun c => base ≤ c.1 && c.1 < base + len)

/-- An address of DBUF, ECBUF or CWBUF (20_memory.md R46). -/
def isBufferAddr (a : Nat) : Bool := Config.dbufBase ≤ a && a < Config.cwbufBase + Config.bufSize

/-- The storage address of CELL[r][c] (R51): 0x10000 + 256·r + c. -/
def cellAddr (r c : Nat) : Nat := Config.matrixBase + 256 * r + c

/-- An address of one of the 177 × 177 stored cells (R40). -/
def isCellAddr (a : Nat) : Bool :=
  Config.matrixBase ≤ a && (a - Config.matrixBase) / 256 < Config.sideMax && (a - Config.matrixBase) % 256 < Config.sideMax

/-- The storage addresses of the n × n symbol (R40, R51). -/
def isSymbolAddr (n a : Nat) : Prop :=
  Config.matrixBase ≤ a ∧ (a - Config.matrixBase) / 256 < n ∧ (a - Config.matrixBase) % 256 < n

/-- An entry lies in the block's storage, and a cell's entry holds only the four planes (R41). -/
def Memory.entryOk (c : Host.Cell) : Bool := isBufferAddr c.1 || (isCellAddr c.1 && decide (c.2.toNat < 16))

/-- Addresses strictly rising, the first of them at least `lo`. -/
def Memory.rising : Nat → Memory → Bool
  | _, [] => true
  | lo, (k, _) :: m => decide (lo ≤ k) && Memory.rising (k + 1) m

/-- The canonical form: addresses strictly rising, every entry one of the block's storage. -/
def Memory.wf (m : Memory) : Bool := Memory.rising 0 m && m.all Memory.entryOk

/-- What the storage byte at an address holds: the byte listed, else POWER_ON_RAM (R11, R138; log 5). -/
def State.readRam (s : State) (a : Nat) : Byte := (s.mem.lookup a).getD (Config.powerOnRam s.powerOns a)

/-- `len` consecutive storage bytes from `base`. -/
def State.readBlock (s : State) (base len : Nat) : List Byte :=
  let part := s.mem.slice base len
  (List.range len).map fun i => (part.lookup (base + i)).getD (Config.powerOnRam s.powerOns (base + i))

/-- Store consecutive bytes from `base` in the state's storage. -/
def State.storeBlock (s : State) (base : Nat) (bs : List Byte) : State := s.setMem (s.mem.storeBlock base bs)

/-! ### Matrix cells and grids -/

/-- The cell byte {0b0000, RSV, SET, FUNC, DARK} (R42). -/
def Cell.toByte (x : Cell) : Byte :=
  0#4 ++ BitVec.ofBool x.rsv ++ BitVec.ofBool x.set ++ BitVec.ofBool x.func ++ BitVec.ofBool x.dark

/-- The planes in the low four bits of a byte, as R42 orders them. -/
def Cell.ofByte (b : Byte) : Cell := ⟨b.getLsbD 2, b.getLsbD 1, b.getLsbD 3, b.getLsbD 0⟩

/-- `clear` of R91: the unset cell. -/
def Cell.unset : Cell := ⟨false, false, false, false⟩

/-- `fn` of R91: a function module of the given colour. -/
def Cell.fn (dark rsv : Bool) : Cell := ⟨true, true, rsv, dark⟩

/-- The data module PLACE writes (R104). -/
def Cell.data (dark : Bool) : Cell := ⟨true, false, false, dark⟩

/-- The cells of the symbol, row by row (R15). -/
abbrev Grid := List (List Cell)

/-- The cell at row `r`, column `c`. -/
def Grid.get (g : Grid) (r c : Nat) : Cell := (g.getD r []).getD c Cell.unset

/-- Change the cell at row `r`, column `c`. -/
def Grid.update (g : Grid) (r c : Nat) (f : Cell → Cell) : Grid := g.modify r fun row => row.modify c f

/-- CELL[r][c] <- x. -/
def Grid.put (g : Grid) (r c : Nat) (x : Cell) : Grid := g.update r c fun _ => x

/-- The n × n grid with a value for every position. -/
def Grid.tabulate (n : Nat) (f : Nat → Nat → Cell) : Grid :=
  (List.range n).map fun r => (List.range n).map fun c => f r c

/-- The stored cell CELL[r][c] (R40). -/
def State.readCell (s : State) (r c : Nat) : Cell := Cell.ofByte (s.readRam (cellAddr r c))

/-- The cells of the n × n symbol as stored. -/
def State.loadGrid (s : State) (n : Nat) : Grid :=
  (List.range n).map fun r => (s.readBlock (cellAddr r 0) n).map Cell.ofByte

/-- Store rows of cells from row `r` on. -/
def Memory.storeRows (m : Memory) : Nat → Grid → Memory
  | _, [] => m
  | r, row :: rows => Memory.storeRows (m.storeBlock (cellAddr r 0) (row.map Cell.toByte)) (r + 1) rows

/-- Store the cells of the symbol. -/
def State.storeGrid (s : State) (g : Grid) : State := s.setMem (s.mem.storeRows 0 g)

/-! ### The port's answers (R45, R129) -/

/-- A write answered OK. -/
def respondOk (s : State) : State := s.setResp ⟨false, none⟩

/-- A read answered OK with its data. -/
def respondData (v : Word) (s : State) : State := s.setResp ⟨false, some v⟩

/-- A write answered SLVERR: no effect on the block (R129). -/
def respondSlverr (s : State) : State := s.setResp ⟨true, none⟩

/-- A read answered SLVERR: it returns 0 (R129). -/
def respondNoData (s : State) : State := s.setResp ⟨true, some 0⟩

/-! ### Configuration -/

/-- `valid(CFG)` (R22). -/
def Cfg.valid (c : Cfg) : Bool := 1 ≤ c.version.toNat && c.version.toNat ≤ Config.vMax

/-- V = CFG.VERSION (R22). -/
def State.version (s : State) : Nat := s.cfg.version.toNat

/-- SIDE(V) = 4·V + 17 (R10, R82). -/
def sideOf (v : Nat) : Nat := 4 * v + 17

/-- SIDE at the present CFG. -/
def State.side (s : State) : Nat := sideOf s.version

/-! ### Unspecified contents (R124, R140; log 6) -/

/-- Free bytes for `len` addresses from `base`. -/
def freeBytes (draw base len : Nat) : List Byte := (List.range len).map fun i => Config.unspecified draw (base + i)

/-- Free cells for the n × n symbol. -/
def freeGrid (draw n : Nat) : Grid := Grid.tabulate n fun r c => Cell.ofByte (Config.unspecified draw (cellAddr r c))

/-- ECBUF[0 .. len−1] becomes unspecified. -/
def scrambleEc (draw len : Nat) (s : State) : State := s.storeBlock Config.ecbufBase (freeBytes draw Config.ecbufBase len)

/-- CWBUF[0 .. len−1] becomes unspecified. -/
def scrambleCw (draw len : Nat) (s : State) : State := s.storeBlock Config.cwbufBase (freeBytes draw Config.cwbufBase len)

/-- The symbol cells of MATRIX become unspecified. -/
def scrambleMatrix (draw n : Nat) (s : State) : State := s.storeGrid (freeGrid draw n)

/-! ### Command errors (60_exceptions.md) and the return from them -/

/-- The value of ERRINFO after reset and after ERR is cleared (R27). -/
def ErrInfo.zero : ErrInfo := ⟨0, .idle, false⟩

/-- `raise CmdError(code)` when a word is taken (R123): ERR, ERRCODE and ERRINFO are written, nothing else. -/
def raiseTaken (code : ErrCode) (opc : Byte) (s : State) : State :=
  (s.setStatus { s.status with err := true, errcode := code }).setErrinfo ⟨opc, s.status.phase, false⟩

/-- `raise CmdError(INTERNAL)` in the sub-step with opcode `opc` (R124), its region already made unspecified. -/
def raiseInternal (opc : Byte) (s : State) : State :=
  (s.setStatus { s.status with err := true, errcode := .internal, phase := .idle, busy := false }).setErrinfo
    ⟨opc, s.status.phase, decide (s.curOp = opcode .run)⟩

/-- The return from an error by STATUS W1C (R25, R127, R132): ERR, ERRCODE and ERRINFO become 0. -/
def clearErr (s : State) : State :=
  (s.setStatus { s.status with err := false, errcode := .none }).setErrinfo ErrInfo.zero

/-! ### Issue (40_control.md R69) -/

/-- Whether a command needs `valid(CFG)` at acceptance (R64, R69). -/
def needsCfg : Instr → Bool
  | .nop => false
  | .softReset => false
  | .rsEncode => true
  | .interleave => true
  | .buildFunc => true
  | .place => true
  | .score => true
  | .finalize => true
  | .run => true

/-- `Pre(opc)`: the phases a command may be accepted in (R64, R69). -/
def phaseAllows : Instr → Phase → Bool
  | .nop, _ => true
  | .softReset, _ => true
  | .rsEncode, _ => true
  | .interleave, p => decide (1 ≤ p.code)
  | .buildFunc, p => decide (2 ≤ p.code)
  | .place, p => decide (p = .funcDone)
  | .score, p => decide (p = .placed) || decide (p = .scored)
  | .finalize, p => decide (p = .scored)
  | .run, _ => true

/-- A word is taken: DONE is cleared (R69, R146). -/
def clearDone (s : State) : State := s.setStatus { s.status with done := false }

/-- Acceptance: CUR_OP and BUSY (R69). -/
def accept (i : Instr) (s : State) : State := (s.setStatus { s.status with busy := true }).setCurOp (opcode i)

/-- The three checks of R69 on a taken legal word, in the priority of R126, then acceptance. -/
def take (i : Instr) (s : State) : State :=
  let t := clearDone s
  if needsCfg i && !t.cfg.valid then raiseTaken .cfgInvalid (opcode i) t
  else if !phaseAllows i t.status.phase then raiseTaken .sequence (opcode i) t
  else accept i t

/-- The CMD write of a legal word other than SOFT_RESET (R69): refused while BUSY or ERR, else taken and answered OK. -/
def issue (i : Instr) (s : State) : State :=
  if s.status.busy || s.status.err then respondSlverr s else respondOk (take i s)

/-- The CMD write of an illegal word with OPC `opc` (R65, R69). -/
def issueIllegal (opc : Byte) (s : State) : State :=
  if s.status.busy || s.status.err then respondSlverr s
  else respondOk (raiseTaken .illegalCmd opc (clearDone s))

/-! ### Completion (40_control.md R71) -/

/-- What the body of a command does: its outputs written, or INTERNAL raised in the sub-step with opcode `opc` (R124). -/
inductive BodyResult where
  | done (s : State)
  | internal (opc : Byte) (s : State)
deriving DecidableEq, Repr

/-- The next body of a RUN starts where the one before it ended; after INTERNAL it is not performed (R75). -/
def BodyResult.andThen (r : BodyResult) (body : State → BodyResult) : BodyResult :=
  match r with
  | .done s => body s
  | .internal opc s => .internal opc s

/-- The column "PHASE after" of R64. -/
def phaseAfter : Instr → Phase → Phase
  | .nop, p => p
  | .softReset, _ => .idle
  | .rsEncode, _ => .ecDone
  | .interleave, _ => .ilDone
  | .buildFunc, _ => .funcDone
  | .place, _ => .placed
  | .score, _ => .scored
  | .finalize, _ => .final
  | .run, _ => .final

/-- The end of a completion step without error (R71). -/
def finish (i : Instr) (s : State) : State :=
  s.setStatus { s.status with phase := phaseAfter i s.status.phase, done := true, busy := false }

/-- The completion step of R71 for the body of command `i`. -/
def complete (i : Instr) (body : State → BodyResult) (s : State) : State :=
  match body s with
  | .done t => finish i t
  | .internal opc t => raiseInternal opc t

/-- The meaning of a command other than SOFT_RESET (log 2). With BUSY = 0 its word is being written to CMD (R69). With
BUSY = 1 and the command in CUR_OP the engine performs its completion step (R71). With BUSY = 1 and another command in
CUR_OP its word is being written to CMD and is refused (R69). -/
def command (i : Instr) (body : State → BodyResult) (s : State) : State :=
  if s.status.busy && decide (s.curOp = opcode i) then complete i body s else issue i s

/-! ### Reset -/

/-- Hardware reset (R138): every register at its reset value and the storage at POWER_ON_RAM, a fresh draw of it. The
events still to come stay (log 11). -/
def hardReset (s : State) : State :=
  { State.reset with powerOns := s.powerOns + 1, draws := s.draws, script := s.script }

end Sys2Proof.Machine
end

