-- ==== Sys2Proof/Machine/Operands.lean ====
section
/-! DEFINITION. The implicit operands of the commands (30_encoding.md R63): the geometry of CFG (R82, R84), the data
codewords of DBUF cut into blocks (R86), the EC codewords of ECBUF and the stream of CWBUF. -/

namespace Sys2Proof.Machine

/-- The row of the block table for (V, ECL) (R84); the absent row where V is not 1 … 40. -/
def blockRow (v ecl : Nat) : BlockRow :=
  if v = 0 then .absent else (blockTable.getD (v - 1) []).getD ecl .absent

/-- N = N1 + N2 (R85). -/
def BlockRow.n (b : BlockRow) : Nat := b.n1 + b.n2

/-- K = N1·K1 + N2·K2 (R84). -/
def BlockRow.k (b : BlockRow) : Nat := b.n1 * b.k1 + b.n2 * b.k2

/-- The lengths k_0 … k_(N−1) of the blocks, short blocks first (R86). -/
def BlockRow.lengths (b : BlockRow) : List Nat := List.replicate b.n1 b.k1 ++ List.replicate b.n2 b.k2

/-- raw(V) (R82), 0 where V is not 1 … 40. -/
def rawOf (v : Nat) : Nat := if v = 0 then 0 else rawTable.getD (v - 1) 0

/-- T(V) = floor(raw(V) / 8) (R82). -/
def totalOf (v : Nat) : Nat := rawOf v / 8

/-- REM(V) = raw(V) mod 8 (R82). -/
def remOf (v : Nat) : Nat := rawOf v % 8

/-- P(V) (R94), empty where V is not 1 … 40. -/
def alignOf (v : Nat) : List Nat := if v = 0 then [] else alignTable.getD (v - 1) []

/-- The block table row of the present CFG. -/
def State.row (s : State) : BlockRow := blockRow s.version s.cfg.ecl.toNat

/-- T(V) of the present CFG. -/
def State.total (s : State) : Nat := totalOf s.version

/-- DBUF[0 .. K−1]. -/
def State.dataCodewords (s : State) : List Byte := s.readBlock Config.dbufBase s.row.k

/-- ECBUF[0 .. N·E−1]. -/
def State.ecCodewords (s : State) : List Byte := s.readBlock Config.ecbufBase (s.row.n * s.row.e)

/-- CWBUF[0 .. T−1]. -/
def State.stream (s : State) : List Byte := s.readBlock Config.cwbufBase s.total

/-- Consecutive blocks of the given lengths (R86): block b is codewords s_b … s_b + k_b − 1. -/
def splitBlocks : List Nat → List Byte → List (List Byte)
  | [], _ => []
  | k :: ks, d => d.take k :: splitBlocks ks (d.drop k)

end Sys2Proof.Machine
end

