-- ==== Sys2Proof/Machine/Encoder.lean ====
section
/-! DEFINITION. The error-correction encoder and interleaver: RS_ENCODE (41_ec_encoder.md R89) and INTERLEAVE (R90). -/

namespace Sys2Proof.Machine

/-- The EC codewords of every block, block after block (R89). -/
def ecOfBlocks (row : BlockRow) (data : List Byte) : List Byte :=
  (splitBlocks row.lengths data).flatMap fun d => rsRemainder d row.e

/-- The body of RS_ENCODE (R89). Its check is s + (N1 + N2)·E = T(V), where s is the sum of the block lengths. -/
def bodyRsEncode (s : State) : BodyResult :=
  let row := s.row
  if row.lengths.sum + row.n * row.e = s.total then
    .done (s.storeBlock Config.ecbufBase (ecOfBlocks row s.dataCodewords))
  else .internal (opcode .rsEncode) (scrambleEc s.draws (row.n * row.e) (s.setDraws (s.draws + 1)))

/-- RS_ENCODE (R89): compute the error-correction codewords of every block. -/
def execRsEncode (s : State) : Host.Outcome State Fault Refusal := .next (command .rsEncode bodyRsEncode s)

/-- Codeword `i` of every block that has one, in block order (a column of R90). -/
def column (blocks : List (List Byte)) (i : Nat) : List Byte := blocks.filterMap fun d => d[i]?

/-- The interleaved stream (R90): the data columns 0 … max(k_b) − 1, then the EC columns 0 … E − 1. -/
def interleaveBlocks (row : BlockRow) (data ec : List Byte) : List Byte :=
  (List.range (row.lengths.foldl max 0)).flatMap (column (splitBlocks row.lengths data)) ++
    (List.range row.e).flatMap (column (splitBlocks (List.replicate row.n row.e) ec))

/-- The body of INTERLEAVE (R90). -/
def bodyInterleave (s : State) : BodyResult :=
  let stream := interleaveBlocks s.row s.dataCodewords s.ecCodewords
  if stream.length = s.total then .done (s.storeBlock Config.cwbufBase stream)
  else .internal (opcode .interleave) (scrambleCw s.draws s.total (s.setDraws (s.draws + 1)))

/-- INTERLEAVE (R90): merge the data and EC codewords of all blocks into one stream. -/
def execInterleave (s : State) : Host.Outcome State Fault Refusal := .next (command .interleave bodyInterleave s)

end Sys2Proof.Machine
end

