-- ==== Sys2Proof/Machine/Builder.lean ====
section
/-! DEFINITION. The matrix builder: the function patterns (42_matrix_builder.md R91 to R98), BUILD_FUNC (R99), the
placement order (R102, R103) and PLACE (R104). -/

namespace Sys2Proof.Machine

/-- One call fn(r, c, d, rsv) of R91; its position may lie outside the symbol. -/
structure Draw where
  r    : Int
  c    : Int
  cell : Cell
deriving DecidableEq, Repr

/-- Perform one drawing on the n × n symbol: a position outside it is skipped (R91). -/
def drawOne (n : Nat) (g : Grid) (d : Draw) : Grid :=
  if 0 ≤ d.r ∧ d.r < n ∧ 0 ≤ d.c ∧ d.c < n then g.put d.r.toNat d.c.toNat d.cell else g

/-- The timing patterns (R92). -/
def timingDraws (n : Nat) : List Draw :=
  (List.range n).flatMap fun i =>
    let cell := Cell.fn (decide (i % 2 = 0)) false
    [⟨6, i, cell⟩, ⟨i, 6, cell⟩]

/-- The offsets −k … k. -/
def offsets (k : Nat) : List Int := (List.range (2 * k + 1)).map fun i => (i : Int) - k

/-- A square pattern of radius k around a centre, the colour a function of d = max(|dr|, |dc|). -/
def squareDraws (k : Nat) (dark : Nat → Bool) (cr cc : Int) : List Draw :=
  (offsets k).flatMap fun dr => (offsets k).map fun dc =>
    ⟨cr + dr, cc + dc, Cell.fn (dark (max dr.natAbs dc.natAbs)) false⟩

/-- The finder patterns and separators (R93): light at distance 2 and 4. -/
def finderDraws (n : Nat) : List Draw :=
  let at' := squareDraws 4 fun d => decide (d ≠ 2 ∧ d ≠ 4)
  at' 3 3 ++ at' 3 ((n : Int) - 4) ++ at' ((n : Int) - 4) 3

/-- The centres of the alignment patterns (R95): every pair but (first, first), (first, last) and (last, first). -/
def alignCentres (p : List Nat) : List (Nat × Nat) :=
  let last := p.length - 1
  (List.range p.length).flatMap fun i => (List.range p.length).filterMap fun j =>
    if (i = 0 ∧ j = 0) ∨ (i = 0 ∧ j = last) ∨ (i = last ∧ j = 0) then none else some (p.getD i 0, p.getD j 0)

/-- The alignment patterns (R95): light at distance 1. -/
def alignDraws (v : Nat) : List Draw :=
  (alignCentres (alignOf v)).flatMap fun p => squareDraws 2 (fun d => decide (d ≠ 1)) p.1 p.2

/-- The cells (bit, row, column) of copy A of the format information (R96). -/
def formatCellsA : List (Nat × Nat × Nat) :=
  [(0, 0, 8), (1, 1, 8), (2, 2, 8), (3, 3, 8), (4, 4, 8), (5, 5, 8), (6, 7, 8), (7, 8, 8), (8, 8, 7),
   (9, 8, 5), (10, 8, 4), (11, 8, 3), (12, 8, 2), (13, 8, 1), (14, 8, 0)]

/-- The cells (bit, row, column) of copy B of the format information (R96). -/
def formatCellsB (n : Nat) : List (Nat × Nat × Nat) :=
  (List.range 8).map (fun i => (i, 8, n - 1 - i)) ++ (List.range 7).map (fun i => (8 + i, n - 15 + (8 + i), 8))

/-- Both copies of the format information (R96). -/
def formatCells (n : Nat) : List (Nat × Nat × Nat) := formatCellsA ++ formatCellsB n

/-- The cells (bit, row, column) of both copies of the version information (R97): none below version 7. -/
def versionCells (v : Nat) : List (Nat × Nat × Nat) :=
  if 7 ≤ v then
    (List.range 18).map (fun i => (i, i / 3, sideOf v - 11 + i % 3)) ++
      (List.range 18).map (fun i => (i, sideOf v - 11 + i % 3, i / 3))
  else []

/-- Reserve an information cell: light, RSV = 1 (R99). -/
def reserveDraw (p : Nat × Nat × Nat) : Draw := ⟨p.2.1, p.2.2, Cell.fn false true⟩

/-- Every drawing of BUILD_FUNC, in the order of R99. -/
def funcDraws (v : Nat) : List Draw :=
  let n := sideOf v
  timingDraws n ++ finderDraws n ++ alignDraws v ++ (formatCells n).map reserveDraw ++
    (versionCells v).map reserveDraw ++ [⟨(n : Int) - 8, 8, Cell.fn true false⟩]

/-- The symbol after BUILD_FUNC (R99): every cell cleared, then the drawings in order. -/
def funcGrid (v : Nat) : Grid :=
  (funcDraws v).foldl (drawOne (sideOf v)) (Grid.tabulate (sideOf v) fun _ _ => Cell.unset)

/-- The body of BUILD_FUNC (R99). -/
def bodyBuildFunc (s : State) : BodyResult := .done (s.storeGrid (funcGrid s.version))

/-- BUILD_FUNC (R99): initialise the symbol and draw every function pattern and reserved area. -/
def execBuildFunc (s : State) : Host.Outcome State Fault Refusal := .next (command .buildFunc bodyBuildFunc s)

/-- The column pairs of R102 by their right column, with the direction (`true` is upward), from `right` on. -/
def zigzagPairs : Nat → Nat → Bool → List (Nat × Bool)
  | 0, _, _ => []
  | fuel + 1, right, up =>
    if right < 1 then []
    else
      let right := if right = 6 then 5 else right
      (right, up) :: zigzagPairs fuel (right - 2) (!up)

/-- The cells of one column pair in its direction, the right one of each row first (R102). -/
def pairCells (n : Nat) (p : Nat × Bool) : List (Nat × Nat) :=
  (List.range n).flatMap fun v =>
    let r := if p.2 then n - 1 - v else v
    [(r, p.1), (r, p.1 - 1)]

/-- Z(V) of R102: the cells with FUNC = 0 in the order of the traversal. -/
def zigzag (n : Nat) (g : Grid) : List (Nat × Nat) :=
  ((zigzagPairs n (n - 1) true).flatMap (pairCells n)).filter fun p => !(g.get p.1 p.2).func

/-- The bits of a codeword, most significant first (R103). -/
def codewordBits (b : Byte) : List Bool := (List.range 8).map fun j => b.getLsbD (7 - j)

/-- The bits placed (R103): those of the stream, then `rem` light remainder bits. -/
def placedBits (stream : List Byte) (rem : Nat) : List Bool := stream.flatMap codewordBits ++ List.replicate rem false

/-- Write the bits into the cells of the order (R104). -/
def placeBits (g : Grid) (order : List (Nat × Nat)) (bits : List Bool) : Grid :=
  (order.zip bits).foldl (fun g q => g.put q.1.1 q.1.2 (Cell.data q.2)) g

/-- Every cell has SET = 1. -/
def Grid.allSet (g : Grid) : Bool := g.all fun row => row.all fun x => x.set

/-- The body of PLACE (R104). -/
def bodyPlace (s : State) : BodyResult :=
  let n := s.side
  let g := s.loadGrid n
  let order := zigzag n g
  let placed := placeBits g order (placedBits s.stream (remOf s.version))
  if order.length = 8 * s.total + remOf s.version ∧ placed.allSet then .done (s.storeGrid placed)
  else .internal (opcode .place) (scrambleMatrix s.draws n (s.setDraws (s.draws + 1)))

/-- PLACE (R104): place the interleaved stream into the data modules. -/
def execPlace (s : State) : Host.Outcome State Fault Refusal := .next (command .place bodyPlace s)

end Sys2Proof.Machine
end

