-- ==== Sys2Proof/Machine/Flags.lean ====
section
/-! DEFINITION. The flags and the words of the registers: irq (R36), STATUS (R24) and its write-1-to-clear (R25), CFG
(R21), IEN (R26), ERRINFO (R27), GEOM0 to GEOM2 (R28 to R30), PEN and PENTOT (R31, R32). -/

namespace Sys2Proof.Machine

/-- irq = (DONE and DONE_IE) or (ERR and ERR_IE) (R36). -/
def State.irq (s : State) : Bool := (s.status.done && s.ien.doneIe) || (s.status.err && s.ien.errIe)

/-- The word of CFG (R21): reserved bits read 0. -/
def cfgWord (c : Cfg) : Word := 0#22 ++ c.ecl ++ 0#2 ++ c.version

/-- The fields of CFG in a written word (R21): reserved bits are ignored. -/
def cfgOfWord (w : Word) : Cfg := ⟨w.extractLsb' 0 6, w.extractLsb' 8 2⟩

/-- The word of STATUS (R24). -/
def State.statusWord (s : State) : Word :=
  0#17 ++ BitVec.ofNat 3 s.status.phase.code ++ 0#1 ++ s.status.mask ++ BitVec.ofNat 4 s.status.errcode.code ++
    BitVec.ofBool s.irq ++ BitVec.ofBool s.status.err ++ BitVec.ofBool s.status.done ++ BitVec.ofBool s.status.busy

/-- The word of IEN (R26). -/
def ienWord (e : Ien) : Word := 0#30 ++ BitVec.ofBool e.errIe ++ BitVec.ofBool e.doneIe

/-- The fields of IEN in a written word (R26). -/
def ienOfWord (w : Word) : Ien := ⟨w.getLsbD 0, w.getLsbD 1⟩

/-- The word of ERRINFO (R27). -/
def errinfoWord (e : ErrInfo) : Word :=
  0#20 ++ BitVec.ofBool e.inRun ++ BitVec.ofNat 3 e.phaseAt.code ++ e.opc

/-- The word of GEOM0 (R28): SIDE and K. -/
def State.geom0 (s : State) : Word :=
  if s.cfg.valid then 0#12 ++ BitVec.ofNat 12 s.row.k ++ BitVec.ofNat 8 s.side else 0

/-- The word of GEOM1 (R29): T, E, N and REM. -/
def State.geom1 (s : State) : Word :=
  if s.cfg.valid then
    0#5 ++ BitVec.ofNat 3 (remOf s.version) ++ BitVec.ofNat 7 s.row.n ++ BitVec.ofNat 5 s.row.e ++ BitVec.ofNat 12 s.total
  else 0

/-- The word of GEOM2 (R30): N1, K1, N2 and K2. -/
def State.geom2 (s : State) : Word :=
  if s.cfg.valid then
    0#1 ++ BitVec.ofNat 7 s.row.k2 ++ 0#1 ++ BitVec.ofNat 7 s.row.n2 ++ 0#1 ++ BitVec.ofNat 7 s.row.k1 ++
      0#1 ++ BitVec.ofNat 7 s.row.n1
  else 0

/-- PEN[m][j] (R31): j = 0 … 3 stands for penalty rules 1 … 4. -/
def Penalties.get (p : Penalties) (j : Nat) : Word :=
  if j = 0 then p.p1 else if j = 1 then p.p2 else if j = 2 then p.p3 else p.p4

/-- PEN[m][0] + PEN[m][1] + PEN[m][2] + PEN[m][3] (R32). -/
def Penalties.total (p : Penalties) : Word := p.p1 + p.p2 + p.p3 + p.p4

/-- The word of a register of 0x000 … 0x020 by its offset (10_state.md section 2): CMD reads 0 (R23). -/
def State.registerWord (s : State) (off : Nat) : Word :=
  if off = 0x000 then Config.idValue
  else if off = 0x004 then cfgWord s.cfg
  else if off = 0x008 then 0
  else if off = 0x00C then s.statusWord
  else if off = 0x010 then ienWord s.ien
  else if off = 0x014 then errinfoWord s.errinfo
  else if off = 0x018 then s.geom0
  else if off = 0x01C then s.geom1
  else s.geom2

/-- The word of a penalty register by its offset (R31, R32): PEN at 0x100 + 16·m + 4·j, PENTOT at 0x180 + 4·m. -/
def State.penaltyWord (s : State) (off : Nat) : Word :=
  if off < 0x180 then (s.pen[(off - 0x100) / 16]?.map fun p => p.get ((off - 0x100) % 16 / 4)).getD 0
  else s.pentot[(off - 0x180) / 4]?.getD 0

/-- A write of `w` to STATUS (R25): bit 1 clears DONE, bit 2 clears ERR, ERRCODE and ERRINFO. -/
def writeStatus (w : Word) (s : State) : State :=
  let t := if w.getLsbD 1 then clearDone s else s
  if w.getLsbD 2 then clearErr t else t

/-- STATUS.PHASE becomes IDLE (R54). -/
def phaseToIdle (s : State) : State := s.setStatus { s.status with phase := .idle }

/-- A write of `w` to CFG while BUSY = 0 (R21, R54). -/
def writeCfg (w : Word) (s : State) : State := phaseToIdle (s.setCfg (cfgOfWord w))

/-- A write of `w` to IEN (R26). -/
def writeIen (w : Word) (s : State) : State := s.setIen (ienOfWord w)

end Sys2Proof.Machine
end

