-- ==== Sys2Proof/Machine/Optimizer.lean ====
section
/-! DEFINITION. The mask optimizer: masks (43_mask_optimizer.md R105, R106), penalties (R108 to R112), selection (R114),
format and version words (R115 to R117), SCORE (R119) and FINALIZE (R120). -/

namespace Sys2Proof.Machine

/-- cond_k(r, c) of R105. -/
def maskCond (k r c : Nat) : Bool :=
  match k with
  | 0 => decide ((r + c) % 2 = 0)
  | 1 => decide (r % 2 = 0)
  | 2 => decide (c % 3 = 0)
  | 3 => decide ((r + c) % 3 = 0)
  | 4 => decide ((r / 2 + c / 3) % 2 = 0)
  | 5 => decide ((r * c) % 2 + (r * c) % 3 = 0)
  | 6 => decide (((r * c) % 2 + (r * c) % 3) % 2 = 0)
  | _ => decide (((r + c) % 2 + (r * c) % 3) % 2 = 0)

/-- One cell under mask k (R106): a data module is inverted where the condition holds; no other plane changes. -/
def maskCell (k r c : Nat) (x : Cell) : Cell := { x with dark := x.dark ^^ (!x.func && maskCond k r c) }

/-- The matrix with mask k applied (R106). -/
def maskGrid (k : Nat) (g : Grid) : Grid := g.mapIdx fun r row => row.mapIdx fun c x => maskCell k r c x

/-- The colours of a grid, 1 = dark (R16, R108). -/
def colours (g : Grid) : List (List Bool) := g.map fun row => row.map fun x => x.dark

/-- The columns of an n-column array of colours. -/
def columnsOf (n : Nat) (x : List (List Bool)) : List (List Bool) :=
  (List.range n).map fun c => x.map fun row => row.getD c false

/-- rows(X) ++ columns(X) (R109, R111). -/
def linesOf (n : Nat) (x : List (List Bool)) : List (List Bool) := x ++ columnsOf n x

/-- The score of one maximal run (R109). -/
def runScore (run : Nat) : Nat := if 5 ≤ run then 3 + (run - 5) else 0

/-- The runs of the rest of a line, where the last `run` cells had colour `prev` (R109). -/
def runsFrom (prev : Bool) (run : Nat) : List Bool → Nat
  | [] => runScore run
  | x :: xs => if x = prev then runsFrom prev (run + 1) xs else runScore run + runsFrom x 1 xs

/-- Penalty rule 1 on one line (R109). -/
def pen1Line : List Bool → Nat
  | [] => 0
  | x :: xs => runsFrom x 1 xs

/-- Penalty rule 1 (R109). -/
def pen1 (n : Nat) (x : List (List Bool)) : Nat := ((linesOf n x).map pen1Line).sum

/-- The 2 × 2 blocks of one colour in two adjacent rows (R110). -/
def blocksInRows : List Bool → List Bool → Nat
  | a :: b :: as, c :: d :: cs =>
    (if a = b ∧ a = c ∧ a = d then 1 else 0) + blocksInRows (b :: as) (d :: cs)
  | _, _ => 0

/-- Penalty rule 2 (R110). -/
def pen2 (x : List (List Bool)) : Nat := 3 * (List.zipWith blocksInRows x x.tail).sum

/-- The window 1 0 1 1 1 0 1 0 0 0 0 of R111. -/
def finderLike : List Bool := [true, false, true, true, true, false, true, false, false, false, false]

/-- The score of the window of 11 cells at the head of a line (R111). -/
def windowScore (l : List Bool) : Nat :=
  (if l.take 11 = finderLike then 40 else 0) + (if l.take 11 = finderLike.reverse then 40 else 0)

/-- Penalty rule 3 on one line: every window (R111). -/
def pen3Line : List Bool → Nat
  | [] => 0
  | x :: xs => windowScore (x :: xs) + pen3Line xs

/-- Penalty rule 3 (R111). -/
def pen3 (n : Nat) (x : List (List Bool)) : Nat := ((linesOf n x).map pen3Line).sum

/-- D of R112: the number of dark cells. -/
def darkCount (x : List (List Bool)) : Nat := (x.map fun row => row.count true).sum

/-- Penalty rule 4 (R112) for D dark cells among n². -/
def balance (n d : Nat) : Nat := 10 * ((20 * (d : Int) - 10 * (n : Int) ^ 2).natAbs / n ^ 2)

/-- Penalty rule 4 (R112). -/
def pen4 (n : Nat) (x : List (List Bool)) : Nat := balance n (darkCount x)

/-- The four penalties of an n × n array of colours (R119). -/
def penaltiesOf (n : Nat) (x : List (List Bool)) : Penalties :=
  ⟨BitVec.ofNat 32 (pen1 n x), BitVec.ofNat 32 (pen2 x), BitVec.ofNat 32 (pen3 n x), BitVec.ofNat 32 (pen4 n x)⟩

/-- PEN[k][0 .. 3] for mask k of the unmasked symbol (R108, R119). -/
def scoreMask (n : Nat) (g : Grid) (k : Nat) : Penalties := penaltiesOf n (colours (maskGrid k g))

/-- PEN[0..7] of the unmasked symbol (R119). -/
def scoreAll (n : Nat) (g : Grid) : Vector Penalties 8 :=
  #v[scoreMask n g 0, scoreMask n g 1, scoreMask n g 2, scoreMask n g 3,
     scoreMask n g 4, scoreMask n g 5, scoreMask n g 6, scoreMask n g 7]

/-- PENTOT[0..7] from PEN (R119). -/
def totalsOf (p : Vector Penalties 8) : Vector Word 8 :=
  #v[p[0].total, p[1].total, p[2].total, p[3].total, p[4].total, p[5].total, p[6].total, p[7].total]

/-- The body of SCORE (R119). -/
def bodyScore (s : State) : BodyResult :=
  let pen := scoreAll s.side (s.loadGrid s.side)
  .done (s.setScores pen (totalsOf pen))

/-- SCORE (R119): compute the four penalties of each of the eight masks. -/
def execScore (s : State) : Host.Outcome State Fault Refusal := .next (command .score bodyScore s)

/-- The least k with the smallest PENTOT[k] (R114). -/
def selectMask (t : Vector Word 8) : Fin 8 :=
  ([1, 2, 3, 4, 5, 6, 7] : List (Fin 8)).foldl (fun best k => if t[k] < t[best] then k else best) 0

/-- One round of a polynomial remainder: with bit `i` of r set, add the generator at that place (R116, R117). -/
def bchRound (gen deg r i : Nat) : Nat := if r.testBit i then r ^^^ (gen <<< (i - deg)) else r

/-- The format word of (ECL, k) (R115, R116); the level code is CFG.ECL xor 0b01. -/
def fmtWord (ecl : BitVec 2) (k : Nat) : BitVec 15 :=
  let d := ((ecl ^^^ 1#2).toNat <<< 3) ||| k
  let r := [14, 13, 12, 11, 10].foldl (bchRound 0x537 10) (d <<< 10)
  BitVec.ofNat 15 (((d <<< 10) ||| r % 2 ^ 10) ^^^ 0x5412)

/-- The version word of V (R117). -/
def verWord (v : Nat) : BitVec 18 :=
  let r := [17, 16, 15, 14, 13, 12].foldl (bchRound 0x1F25 12) (v <<< 12)
  BitVec.ofNat 18 ((v <<< 12) ||| r % 2 ^ 12)

/-- Write the bits of an information word into their cells: only DARK changes (R120). -/
def writeInfo {w : Nat} (word : BitVec w) (cells : List (Nat × Nat × Nat)) (g : Grid) : Grid :=
  cells.foldl (fun g p => g.update p.2.1 p.2.2 fun x => { x with dark := word.getLsbD p.1 }) g

/-- The finished symbol (R120): mask `k` applied, the format and, from version 7 on, the version information written. -/
def finishGrid (v : Nat) (ecl : BitVec 2) (k : Nat) (g : Grid) : Grid :=
  writeInfo (verWord v) (versionCells v) (writeInfo (fmtWord ecl k) (formatCells (sideOf v)) (maskGrid k g))

/-- The body of FINALIZE (R120). -/
def bodyFinalize (s : State) : BodyResult :=
  let best := selectMask s.pentot
  let t := s.storeGrid (finishGrid s.version s.cfg.ecl best.val (s.loadGrid s.side))
  .done (t.setStatus { s.status with mask := BitVec.ofNat 3 best.val })

/-- FINALIZE (R120): apply the selected mask and write the format and version information. -/
def execFinalize (s : State) : Host.Outcome State Fault Refusal := .next (command .finalize bodyFinalize s)

end Sys2Proof.Machine
end

