-- ==== Sys2Proof/Machine/Control.lean ====
section
/-! DEFINITION. The control commands (40_control.md): NOP (R73), SOFT_RESET (R74) and RUN (R75). -/

namespace Sys2Proof.Machine

/-- The body of NOP: skip (R73). -/
def bodyNop (s : State) : BodyResult := .done s

/-- NOP (R73): accepted and completed with no other effect. -/
def execNop (s : State) : Host.Outcome State Fault Refusal := .next (command .nop bodyNop s)

/-- The outputs of an aborted command become unspecified (R140), by the opcode in CUR_OP. -/
def abortOutputs (s : State) : State :=
  let ec := s.row.n * s.row.e
  match ofOpcode s.curOp with
  | some .rsEncode => scrambleEc s.draws ec s
  | some .interleave => scrambleCw s.draws s.total s
  | some .buildFunc => scrambleMatrix s.draws s.side s
  | some .place => scrambleMatrix s.draws s.side s
  | some .finalize => scrambleMatrix s.draws s.side s
  | some .run => scrambleMatrix s.draws s.side (scrambleCw s.draws s.total (scrambleEc s.draws ec s))
  | _ => s

/-- The registers SOFT_RESET writes (R74): STATUS, ERRINFO, CUR_OP, PEN and PENTOT become 0. -/
def clearSequencer (s : State) : State :=
  ((((s.setStatus State.reset.status).setErrinfo ErrInfo.zero).setCurOp 0x00).setScores
    State.reset.pen State.reset.pentot)

/-- SOFT_RESET (R74): abort a running command, then clear the sequencer. CFG, IEN and DBUF are unchanged. -/
def softReset (s : State) : State :=
  clearSequencer (if s.status.busy then (abortOutputs s).setDraws (s.draws + 1) else s)

/-- SOFT_RESET (R74): performed within the CMD write, which is answered OK, also while BUSY or ERR (R69). -/
def execSoftReset (s : State) : Host.Outcome State Fault Refusal := .next (respondOk (softReset s))

/-- The body of RUN (R75): the six bodies in order, stopping at INTERNAL. -/
def bodyRun (s : State) : BodyResult :=
  (((((bodyRsEncode s).andThen bodyInterleave).andThen bodyBuildFunc).andThen bodyPlace).andThen bodyScore).andThen
    bodyFinalize

/-- RUN (R75): the whole pipeline, from data codewords to the finished matrix. -/
def execRun (s : State) : Host.Outcome State Fault Refusal := .next (command .run bodyRun s)

end Sys2Proof.Machine
end

