-- ==== Sys2Proof/Machine/Dispatch.lean ====
section
/-! DEFINITION. One meaning for each command (30_encoding.md R64). -/

namespace Sys2Proof.Machine

/-- What the block does with a command: its issue in the CMD write (R69) or its completion step (R71); log 2. -/
def exec (i : Instr) (s : State) : Host.Outcome State Fault Refusal :=
  match i with
  | .nop => Sys2Proof.Machine.execNop s
  | .softReset => Sys2Proof.Machine.execSoftReset s
  | .rsEncode => Sys2Proof.Machine.execRsEncode s
  | .interleave => Sys2Proof.Machine.execInterleave s
  | .buildFunc => Sys2Proof.Machine.execBuildFunc s
  | .place => Sys2Proof.Machine.execPlace s
  | .score => Sys2Proof.Machine.execScore s
  | .finalize => Sys2Proof.Machine.execFinalize s
  | .run => Sys2Proof.Machine.execRun s

end Sys2Proof.Machine
end

