-- ==== Sys2Proof/Machine/Port.lean ====
section
/-! DEFINITION. The host port (20_memory.md R45 to R54), the busy policy (70_reset_and_hazards.md R142), the submission
of a command word (40_control.md R69) and the engine's opportunity to complete a command (R71). -/

namespace Sys2Proof.Machine

/-- The regions of the address space (R46). -/
inductive Region where
  | regs | pens | dbuf | ecbuf | cwbuf | matrix
deriving DecidableEq, Repr

/-- The region of an address; `none` where the address is unmapped (R46). -/
def regionOf (a : Nat) : Option Region :=
  if a < 0x00024 then some .regs
  else if 0x00100 ≤ a ∧ a < 0x001A0 then some .pens
  else if Config.dbufBase ≤ a ∧ a < Config.dbufBase + Config.bufSize then some .dbuf
  else if Config.ecbufBase ≤ a ∧ a < Config.ecbufBase + Config.bufSize then some .ecbuf
  else if Config.cwbufBase ≤ a ∧ a < Config.cwbufBase + Config.bufSize then some .cwbuf
  else if Config.matrixBase ≤ a ∧ a < Config.addrEnd then some .matrix
  else none

/-- A region of registers, which takes 4-byte accesses only (R48). -/
def Region.isRegister : Region → Bool
  | .regs => true
  | .pens => true
  | _ => false

/-- The region an access of `n` bytes at `a` reaches; `none` for SLVERR causes 1 to 3 of R129: not all in one region (R47),
not aligned (R49), or a register access of the wrong size (R48). -/
def target (a n : Nat) : Option Region :=
  match regionOf a with
  | some r =>
    if regionOf (a + n - 1) = some r ∧ a % n = 0 ∧ (r.isRegister = true → n = 4) then some r else none
  | none => none

/-- Byte `b` of the MATRIX window (R51): the cell byte inside the symbol, 0 elsewhere or while CFG is not valid. -/
def State.windowByte (s : State) (b : Nat) : Byte :=
  let o := b - Config.matrixBase
  let r := o / 256
  let c := o % 256
  if s.cfg.valid ∧ r < s.side ∧ c < s.side then (s.readCell r c).toByte else 0

/-- The byte a host read of a buffer or of the MATRIX window sees at an address. -/
def State.portByte (s : State) (a : Nat) : Byte :=
  if Config.matrixBase ≤ a then s.windowByte a else s.readRam a

/-- The value of bytes from the lowest address up: little-endian (R50). -/
def leWord (bs : List Byte) : Word := bs.foldr (fun b acc => (acc <<< 8) ||| b.setWidth 32) 0

/-- The `n` bytes of a value from the lowest address up: little-endian (R50). -/
def leBytes (n : Nat) (v : Word) : List Byte := (List.range n).map fun i => v.extractLsb' (8 * i) 8

/-- The data of a read of `n` bytes of a buffer or of the MATRIX window. -/
def State.portWord (s : State) (a n : Nat) : Word := leWord ((List.range n).map fun i => s.portByte (a + i))

/-- `HostRead(a, n)`: its data, or `none` for SLVERR (R45, R129, R142). -/
def hostReadData (a n : Nat) (s : State) : Option Word :=
  match target a n with
  | some .regs => some (s.registerWord a)
  | some .pens => if s.status.busy then none else some (s.penaltyWord a)
  | some .dbuf => some (s.portWord a n)
  | some .ecbuf => if s.status.busy then none else some (s.portWord a n)
  | some .cwbuf => if s.status.busy then none else some (s.portWord a n)
  | some .matrix => if s.status.busy then none else some (s.portWord a n)
  | none => none

/-- `HostRead(a, n)`: no effect but the answer (R53). -/
def hostRead (a n : Nat) (s : State) : State :=
  match hostReadData a n s with
  | some v => respondData v s
  | none => respondNoData s

/-- A 4-byte write of `w` to CMD (R69): a legal word is executed, an illegal one raises ILLEGAL_CMD when taken; while BUSY or
ERR every word but SOFT_RESET is refused. -/
def submit (w : Word) (s : State) : Host.Outcome State Fault Refusal :=
  if s.status.busy || s.status.err then
    if w = encode .softReset then exec .softReset s else .next (respondSlverr s)
  else
    match decode w with
    | .ok i => exec i s
    | .error _ => .next (issueIllegal (splitWord w).opc s)

/-- A write of `n` bytes of `v` to DBUF: refused while BUSY (R142), else stored with PHASE to IDLE (R54). -/
def writeDbuf (a n : Nat) (v : Word) (s : State) : State :=
  if s.status.busy then respondSlverr s else respondOk (phaseToIdle (s.storeBlock a (leBytes n v)))

/-- A 4-byte write of `w` to the register at `off` (R21, R25, R26, R52, R69, R142). -/
def writeRegister (off : Nat) (w : Word) (s : State) : Host.Outcome State Fault Refusal :=
  if off = 0x004 then .next (if s.status.busy then respondSlverr s else respondOk (writeCfg w s))
  else if off = 0x008 then submit w s
  else if off = 0x00C then .next (respondOk (writeStatus w s))
  else if off = 0x010 then .next (respondOk (writeIen w s))
  else .next (respondSlverr s)

/-- `HostWrite(a, n, v)` (R45): every region but the registers and DBUF is read-only (R52). -/
def hostWrite (a n : Nat) (v : Word) (s : State) : Host.Outcome State Fault Refusal :=
  match target a n with
  | some .regs => writeRegister a v s
  | some .dbuf => .next (writeDbuf a n v s)
  | _ => .next (respondSlverr s)

/-- One host access (R45). -/
def hostAccess (h : HostAccess) (s : State) : Host.Outcome State Fault Refusal :=
  match h with
  | .rd8 a => .next (hostRead a.toNat 1 s)
  | .rd16 a => .next (hostRead a.toNat 2 s)
  | .rd32 a => .next (hostRead a.toNat 4 s)
  | .wr8 a v => hostWrite a.toNat 1 (v.setWidth 32) s
  | .wr16 a v => hostWrite a.toNat 2 (v.setWidth 32) s
  | .wr32 a v => hostWrite a.toNat 4 v s

/-- The command in CUR_OP: the one whose word is CUR_OP with RSVD = 0 (R34). SOFT_RESET is never there (R74). -/
def State.running (s : State) : Option Instr :=
  match decode (joinWord ⟨0, s.curOp⟩) with
  | .ok .softReset => none
  | .ok i => some i
  | .error _ => none

/-- The engine's opportunity: its completion step, enabled iff BUSY = 1 (R71); otherwise nothing happens (R137). -/
def engineStep (s : State) : Host.Outcome State Fault Refusal :=
  if s.status.busy then
    match s.running with
    | some i => exec i s
    | none => .fault .strayCurOp
  else .next s

/-- What one event does. -/
def perform (e : Event) (s : State) : Host.Outcome State Fault Refusal :=
  match e with
  | .host a => hostAccess a s
  | .engine => engineStep s
  | .hardReset => .next (hardReset s)

/-- The host's submission of the command word `w`. -/
def submission (w : Word) : Event := .host (.wr32 0x00008 w)

end Sys2Proof.Machine
end

