-- ==== Sys2Proof/Machine/Step.lean ====
section
/-! DEFINITION. One step of the machine: the next event of the script, or the engine's opportunity when no event is left. -/

namespace Sys2Proof.Machine

/-- One step (R5, R56, R71): the next event is performed; with the script used up the engine completes what it accepted. -/
def step (s : State) : Host.Outcome State Fault Refusal :=
  match s.script with
  | e :: rest => perform e (s.setScript rest)
  | [] => engineStep s

/-- The state whose next step is the host's write to CMD of the word with the low `nbits` bits of `w` (log 3). -/
def State.withFetchWord (s : State) (nbits w : Nat) : State :=
  s.setScript (submission (BitVec.ofNat 32 (w % 2 ^ nbits)) :: s.script)

end Sys2Proof.Machine
end

