-- ==== Sys2Proof/Safety.lean ====
section
/-! DEFINITION. What a safe run is: the invariant of the block's states, which every step from reset on keeps. -/

namespace Sys2Proof.Machine

/-- The flags agree with one another: DONE and ERR are 0 while BUSY (R127, R142), DONE and ERR are never both 1 (R146), and
ERRCODE and ERRINFO are 0 exactly as ERR says (R24, R27, R122). -/
def State.FlagsOk (s : State) : Prop :=
  (s.status.busy = true → s.status.done = false ∧ s.status.err = false) ∧
  (s.status.done = true → s.status.err = false) ∧
  (s.status.err = false → s.status.errcode = .none ∧ s.errinfo = ErrInfo.zero) ∧
  (s.status.err = true → s.status.errcode ≠ .none)

/-- While BUSY, CUR_OP holds an accepted command (R34) whose acceptance checks still hold (R56, R69, R142). -/
def State.EngineOk (s : State) : Prop :=
  s.status.busy = true →
    ∃ i, s.running = some i ∧ (needsCfg i = true → s.cfg.valid = true) ∧ phaseAllows i s.status.phase = true

/-- PHASE is past IDLE only under a valid CFG (R33, R54). -/
def State.ConfigOk (s : State) : Prop := s.status.phase ≠ .idle → s.cfg.valid = true

/-- PENTOT[m] is the sum of the four PEN[m] (R32). -/
def State.ScoresOk (s : State) : Prop := ∀ m : Fin 8, s.pentot[m] = (s.pen[m]).total

/-- R43: from FUNC_DONE on, RSV implies FUNC and an unset cell is no function module; from PLACED on every cell is set. -/
def State.MatrixOk (s : State) : Prop :=
  (3 ≤ s.status.phase.code → ∀ r c, r < s.side → c < s.side →
    ((s.readCell r c).rsv = true → (s.readCell r c).func = true) ∧
    ((s.readCell r c).set = false → (s.readCell r c).func = false)) ∧
  (4 ≤ s.status.phase.code → ∀ r c, r < s.side → c < s.side → (s.readCell r c).set = true)

/-- At FUNC_DONE the symbol is as BUILD_FUNC drew it (R33, R125). -/
def State.FreshOk (s : State) : Prop :=
  s.status.phase = .funcDone → ∀ r c, r < s.side → c < s.side → s.readCell r c = (funcGrid s.version).get r c

/-- The invariant of the block. -/
structure State.Inv (s : State) : Prop where
  mem    : s.mem.wf = true
  flags  : s.FlagsOk
  engine : s.EngineOk
  config : s.ConfigOk
  scores : s.ScoresOk
  matrix : s.MatrixOk
  fresh  : s.FreshOk

end Sys2Proof.Machine
end

