-- ==== Sys2Proof/Certificates/Slice0/Obligations.lean ====
section
/-! DEFINITION. The statements for the provers, and the words of the spec they are written in. -/

namespace Sys2Proof.Claims

open Sys2Proof.Machine

/-! ### The spec's own words: command words, phases, regions -/

/-- The nine legal command words, in the order of 30_encoding.md R66. -/
def nineWords : List Word :=
  [0x00000000, 0x00000001, 0x00000010, 0x00000011, 0x00000020, 0x00000021, 0x00000022, 0x00000023, 0x00000030]

/-- The nine commands in the same order. -/
def nineCommands : List Instr :=
  [.nop, .softReset, .rsEncode, .interleave, .buildFunc, .place, .score, .finalize, .run]

/-- Every phase. -/
def anyPhase : List Phase := [.idle, .ecDone, .ilDone, .funcDone, .placed, .scored, .final]

/-- The column "PHASE required at acceptance" of R64. -/
def requiredPhases : Instr → List Phase
  | .nop => anyPhase
  | .softReset => anyPhase
  | .rsEncode => anyPhase
  | .interleave => [.ecDone, .ilDone, .funcDone, .placed, .scored, .final]
  | .buildFunc => [.ilDone, .funcDone, .placed, .scored, .final]
  | .place => [.funcDone]
  | .score => [.placed, .scored]
  | .finalize => [.scored]
  | .run => anyPhase

/-- `valid(CFG)` in the words of R22: 1 ≤ CFG.VERSION ≤ 40. -/
def Valid (s : State) : Prop := 1 ≤ s.cfg.version.toNat ∧ s.cfg.version.toNat ≤ 40

/-- The commands that need `valid(CFG)`: every one but NOP and SOFT_RESET (R64). -/
def NeedsValid (i : Instr) : Prop := i ≠ .nop ∧ i ≠ .softReset

/-- Which command error a legal word raises when it is taken (R69, R126), if any. -/
inductive Raises (s : State) (i : Instr) : ErrCode → Prop where
  | cfgInvalid : NeedsValid i → ¬ Valid s → Raises s i .cfgInvalid
  | sequence : (NeedsValid i → Valid s) → s.status.phase ∉ requiredPhases i → Raises s i .sequence

/-- The state after a word with opcode field `opc` raised the command error `code` in its CMD write (R123). -/
def withTakenError (s : State) (code : ErrCode) (opc : Byte) : State :=
  { s with
    status := { s.status with done := false, err := true, errcode := code }
    errinfo := ⟨opc, s.status.phase, false⟩
    resp := some ⟨false, none⟩ }

/-- The addresses ECBUF[0 .. N·E−1] at the present CFG. -/
def InEc (s : State) (a : Nat) : Prop := 0x02000 ≤ a ∧ a < 0x02000 + s.row.n * s.row.e

/-- The addresses CWBUF[0 .. T−1] at the present CFG. -/
def InCw (s : State) (a : Nat) : Prop := 0x03000 ≤ a ∧ a < 0x03000 + s.total

/-- The addresses of the symbol cells of MATRIX at the present CFG. -/
def InSymbol (s : State) (a : Nat) : Prop := isSymbolAddr s.side a

/-- The region the command in CUR_OP writes (70_reset_and_hazards.md R140). -/
def InOutput (s : State) (a : Nat) : Prop :=
  (s.curOp ∈ ([0x10, 0x30] : List Byte) ∧ InEc s a) ∨ (s.curOp ∈ ([0x11, 0x30] : List Byte) ∧ InCw s a) ∨
  (s.curOp ∈ ([0x20, 0x21, 0x23, 0x30] : List Byte) ∧ InSymbol s a)

/-! ### Blocks and the stream (41_ec_encoder.md R86, R90) -/

/-- k_b of R86. -/
def blockLen (row : BlockRow) (b : Nat) : Nat := if b < row.n1 then row.k1 else row.k2

/-- s_b of R86. -/
def blockStart (row : BlockRow) (b : Nat) : Nat := ((List.range b).map (blockLen row)).sum

/-- The data codewords of block b: DBUF[s_b .. s_b + k_b − 1]. -/
def blockData (s : State) (b : Nat) : List Byte :=
  (List.range (blockLen s.row b)).map fun i => s.readRam (0x01000 + blockStart s.row b + i)

/-- The stream of R90, with the EC codewords of ECBUF given by position. -/
def streamOf (s : State) (ec : Nat → Byte) : List Byte :=
  ((List.range (max s.row.k1 s.row.k2)).flatMap fun i => (List.range s.row.n).filterMap fun b =>
    if i < blockLen s.row b then some (s.readRam (0x01000 + blockStart s.row b + i)) else none) ++
  (List.range s.row.e).flatMap fun i => (List.range s.row.n).map fun b => ec (b * s.row.e + i)

/-! ### The matrix (42_matrix_builder.md R92 to R103) -/

/-- The distance of two coordinates. -/
def gap (a b : Nat) : Nat := (a - b) + (b - a)

/-- max(|dr|, |dc|). -/
def ring (r c cr cc : Nat) : Nat := max (gap r cr) (gap c cc)

/-- The version-information cells (R97). -/
def isVersionCell (v r c : Nat) : Bool :=
  decide (7 ≤ v ∧ ((r ≤ 5 ∧ 4 * v + 17 - 11 ≤ c ∧ c ≤ 4 * v + 17 - 9) ∨ (c ≤ 5 ∧ 4 * v + 17 - 11 ≤ r ∧ r ≤ 4 * v + 17 - 9)))

/-- The format-information cells (R96). -/
def isFormatCell (v r c : Nat) : Bool :=
  decide ((c = 8 ∧ ((r ≤ 8 ∧ r ≠ 6) ∨ 4 * v + 17 - 7 ≤ r)) ∨ (r = 8 ∧ ((c ≤ 8 ∧ c ≠ 6) ∨ 4 * v + 17 - 8 ≤ c)))

/-- The two cells of bit i of the format word, copy A then copy B, by the rows and columns of R96. -/
def formatSpots (n i : Nat) : List (Nat × Nat) :=
  [if i ≤ 5 then (i, 8) else if i = 6 then (7, 8) else if i = 7 then (8, 8) else if i = 8 then (8, 7) else (8, 14 - i),
   if i ≤ 7 then (8, n - 1 - i) else (n - 15 + i, 8)]

/-- The two cells of bit i of the version word, upper right then lower left (R97). -/
def versionSpots (n i : Nat) : List (Nat × Nat) := [(i / 3, n - 11 + i % 3), (n - 11 + i % 3, i / 3)]

/-- The centres of alignment patterns (R95) that the cell lies within two of. -/
def alignNear (v r c : Nat) : List (Nat × Nat) :=
  (alignOf v).flatMap fun p => (alignOf v).filterMap fun q =>
    if ring r c p q ≤ 2 ∧ ¬ (p = 6 ∧ q = 6) ∧ ¬ (p = 6 ∧ q = 4 * v + 10) ∧ ¬ (p = 4 * v + 10 ∧ q = 6) then some (p, q)
    else none

/-- The finder centres (R93) that the cell lies within four of. -/
def finderNear (v r c : Nat) : List (Nat × Nat) :=
  [(3, 3), (3, 4 * v + 13), (4 * v + 13, 3)].filter fun p => decide (ring r c p.1 p.2 ≤ 4)

/-- The cell after BUILD_FUNC as R100 gives it: the highest entry it falls in. -/
def drawnCell (v r c : Nat) : Cell :=
  if r = 4 * v + 9 ∧ c = 8 then ⟨true, true, false, true⟩
  else if isVersionCell v r c then ⟨true, true, true, false⟩
  else if isFormatCell v r c then ⟨true, true, true, false⟩
  else
    match alignNear v r c with
    | p :: _ => ⟨true, true, false, decide (ring r c p.1 p.2 ≠ 1)⟩
    | [] =>
      match finderNear v r c with
      | p :: _ => ⟨true, true, false, decide (ring r c p.1 p.2 ≠ 2 ∧ ring r c p.1 p.2 ≠ 4)⟩
      | [] =>
        if r = 6 then ⟨true, true, false, decide (c % 2 = 0)⟩
        else if c = 6 then ⟨true, true, false, decide (r % 2 = 0)⟩
        else ⟨false, false, false, false⟩

/-- The right columns of the pairs of R102: n−1, n−3, …, 8, then 5, 3, 1. -/
def rightColumns (n : Nat) : List Nat := (List.range ((n - 1) / 2 - 3)).map (fun i => n - 1 - 2 * i) ++ [5, 3, 1]

/-- Z(V) of R102 over the FUNC plane, the direction alternating from upward. -/
def placementOrder (n : Nat) (func : Nat → Nat → Bool) : List (Nat × Nat) :=
  (rightColumns n).zipIdx.flatMap fun p => (List.range n).flatMap fun v => [p.1, p.1 - 1].filterMap fun c =>
    let r := if p.2 % 2 = 0 then n - 1 - v else v
    if func r c then none else some (r, c)

/-- The order in the symbol as stored. -/
def orderOf (s : State) : List (Nat × Nat) := placementOrder s.side fun r c => (s.readCell r c).func

/-- Bit j of the placed stream (R103): of CWBUF, most significant bit first, then light remainder bits. -/
def streamBit (s : State) (j : Nat) : Bool :=
  if j < 8 * s.total then (s.readRam (0x03000 + j / 8)).getLsbD (7 - j % 8) else false

/-- P(V) by the formula of R94: 6, then n − 7 − step · j down to j = 0. -/
def alignByStep (v : Nat) : List Nat :=
  let a := v / 7 + 2
  let step := if v = 32 then 26 else 2 * ((4 * v + 2 * a + 1) / (2 * a - 2))
  if v = 1 then [] else 6 :: (List.range (a - 1)).map fun i => 4 * v + 10 - step * (a - 2 - i)

/-! ### The penalties (43_mask_optimizer.md R108 to R112) -/

/-- `x` is an n × n array of colours. -/
def IsSquareArray (n : Nat) (x : List (List Bool)) : Prop := x.length = n ∧ ∀ row ∈ x, row.length = n

/-- The colour at (r, c). -/
def colourAt (x : List (List Bool)) (r c : Nat) : Bool := (x.getD r []).getD c false

/-- The n rows and the n columns. -/
def allLines (n : Nat) (x : List (List Bool)) : List (List Bool) :=
  ((List.range n).map fun r => (List.range n).map fun c => colourAt x r c) ++
    (List.range n).map fun c => (List.range n).map fun r => colourAt x r c

/-- All positions (r, c) with r, c < m. -/
def positions (m : Nat) : List (Nat × Nat) := (List.range m).flatMap fun r => (List.range m).map fun c => (r, c)

/-- X_k of R108 for the stored symbol: mask k applied to the data modules. -/
def maskedColours (s : State) (k : Nat) : List (List Bool) :=
  (List.range s.side).map fun r => (List.range s.side).map fun c =>
    (s.readCell r c).dark ^^ (!(s.readCell r c).func && maskCond k r c)

/-- `best` is the least k with PENTOT[k] smallest (R114). -/
def IsBest (t : Vector Word 8) (best : Fin 8) : Prop :=
  (∀ k : Fin 8, t[best] ≤ t[k]) ∧ ∀ k : Fin 8, k < best → t[best] < t[k]

/-! ### Host accesses (20_memory.md R45 to R52) -/

def accessAddr : HostAccess → Nat
  | .rd8 a => a.toNat
  | .rd16 a => a.toNat
  | .rd32 a => a.toNat
  | .wr8 a _ => a.toNat
  | .wr16 a _ => a.toNat
  | .wr32 a _ => a.toNat

def accessSize : HostAccess → Nat
  | .rd8 _ => 1
  | .rd16 _ => 2
  | .rd32 _ => 4
  | .wr8 _ _ => 1
  | .wr16 _ _ => 2
  | .wr32 _ _ => 4

def isWrite : HostAccess → Bool
  | .rd8 _ => false
  | .rd16 _ => false
  | .rd32 _ => false
  | .wr8 _ _ => true
  | .wr16 _ _ => true
  | .wr32 _ _ => true

/-- The write of the low n bytes of `v` at `a`, for the sizes 1, 2 and 4 (R45). -/
def writeOf (n : Nat) (a : BitVec 17) (v : Word) : HostAccess :=
  if n = 1 then .wr8 a (v.setWidth 8) else if n = 2 then .wr16 a (v.setWidth 16) else .wr32 a v

/-- The value of n storage bytes from `a` up, the lowest address least significant (R50). -/
def bytesValue (s : State) (a n : Nat) : Word :=
  BitVec.ofNat 32 (((List.range n).map fun i => (s.readRam (a + i)).toNat * 256 ^ i).sum)

/-- The answer to a read: OK with the data, or SLVERR with 0 (R45, R129). -/
def readAnswer : Option Word → Response
  | some v => ⟨false, some v⟩
  | none => ⟨true, some 0⟩

/-- The access lies inside one region of the table of R46. -/
def InOneRegion (h : HostAccess) : Prop :=
  ∃ p ∈ [(0x00000, 0x00024), (0x00100, 0x001A0), (0x01000, 0x02000), (0x02000, 0x03000), (0x03000, 0x04000),
      (0x10000, 0x20000)], p.1 ≤ accessAddr h ∧ accessAddr h + accessSize h ≤ p.2

/-- The seven causes of SLVERR, in the order of 60_exceptions.md R129. -/
def SlverrCause (s : State) (h : HostAccess) : Prop :=
  ¬ InOneRegion h ∨
  accessAddr h % accessSize h ≠ 0 ∨
  (accessAddr h < 0x001A0 ∧ accessSize h ≠ 4) ∨
  (isWrite h = true ∧ (accessAddr h ∈ [0x00000, 0x00014, 0x00018, 0x0001C, 0x00020] ∨
    (0x00100 ≤ accessAddr h ∧ accessAddr h < 0x001A0) ∨ 0x02000 ≤ accessAddr h)) ∨
  ((s.status.busy = true ∨ s.status.err = true) ∧ ∃ w, h = .wr32 0x00008 w ∧ w ≠ 0x00000001) ∨
  (s.status.busy = true ∧ isWrite h = true ∧
    (accessAddr h = 0x00004 ∨ (0x01000 ≤ accessAddr h ∧ accessAddr h < 0x02000))) ∨
  (s.status.busy = true ∧ isWrite h = false ∧
    ((0x00100 ≤ accessAddr h ∧ accessAddr h < 0x001A0) ∨ 0x02000 ≤ accessAddr h))

/-- The engine has its opportunity in the next step. -/
def EngineNext (s : State) : Prop := s.script = [] ∨ ∃ rest, s.script = .engine :: rest

/-- The script after the next step. -/
def restOf (s : State) : List Event := s.script.tail

/-- A CMD write submits each of the given command words, and the engine completes it. -/
def issueAll (is : List Instr) : List Event := is.flatMap fun i => [submission (encode i), .engine]

/-- The state with the given script. -/
def withScript (s : State) (l : List Event) : State := { s with script := l }

end Sys2Proof.Claims

open Sys2Proof Sys2Proof.Machine Sys2Proof.Claims

/-! ### Encoding -/

/-- R66: a word decodes exactly when it is one of the nine, and they stand for the nine commands in order. -/
def Obligations.NineWordsAndNoOtherDecode : Prop :=
  (∀ w : Word, (w ∈ nineWords → ∃ i, decode w = .ok i) ∧ (w ∉ nineWords → ∃ e, decode w = .error e)) ∧
  nineCommands.map encode = nineWords

/-- R62, R66: decode and encode agree on every word and every command. -/
def Obligations.DecodeAndEncodeAgree : Prop :=
  ∀ (w : Word) (i : Instr), decode w = .ok i ↔ w = encode i

/-- Words written out from the format of R62 and the table of R64 decode as the table says. -/
def Obligations.WrittenOutWordsDecode : Prop :=
  decode 0b00000000000000000000000000000000 = .ok .nop ∧ decode 0b00000000000000000000000000010001 = .ok .interleave ∧
  decode 0b00000000000000000000000000100011 = .ok .finalize ∧ decode 0b00000000000000000000000000110000 = .ok .run ∧
  decode 0b00000000000000000000000000000010 = .error .undefinedOpcode ∧
  decode 0b10000000000000000000000000110000 = .error .reservedNonzero

/-! ### Issue -/

/-- A step whose next event is the CMD write of a legal word runs the command it decodes to: SOFT_RESET at any time, every
other one while BUSY = 0 and ERR = 0 (R69). The event is used up first. -/
def Obligations.StepRunsTheSubmittedCommand : Prop :=
  ∀ (s : State) (w : Word) (rest : List Event) (i : Instr), s.script = submission w :: rest → decode w = .ok i →
    (i = .softReset ∨ (s.status.busy = false ∧ s.status.err = false)) → step s = exec i (withScript s rest)

/-- A step in which the engine has its opportunity with BUSY = 1 runs the command whose opcode CUR_OP holds (R34, R71). -/
def Obligations.StepCompletesTheRunningCommand : Prop :=
  ∀ (s : State) (i : Instr), EngineNext s → s.status.busy = true → i ≠ .softReset → s.curOp = opcode i →
    step s = exec i (withScript s (restOf s))

/-- R69: while BUSY or ERR every word but 0x00000001 is refused, and nothing but the answer changes. -/
def Obligations.WordsAreRefusedWhileBusyOrErr : Prop :=
  ∀ (s : State) (w : Word) (rest : List Event), s.script = submission w :: rest →
    (s.status.busy = true ∨ s.status.err = true) → w ≠ 0x00000001 →
    step s = .next { s with script := rest, resp := some ⟨true, none⟩ }

/-- R69: with BUSY = 0 and ERR = 0 every command but SOFT_RESET is accepted when its checks hold: DONE 0, BUSY 1, CUR_OP its
opcode, answered OK, nothing else. -/
def Obligations.LegalCommandsAreAccepted : Prop :=
  ∀ (s : State) (i : Instr), i ≠ .softReset → s.status.busy = false → s.status.err = false →
    (NeedsValid i → Valid s) → s.status.phase ∈ requiredPhases i →
    exec i s = .next { s with
      status := { s.status with done := false, busy := true }
      curOp := opcode i
      resp := some ⟨false, none⟩ }

/-- R123: a command error raised when a word is taken writes DONE, ERR, ERRCODE and ERRINFO and nothing else, for each of
its three codes: ILLEGAL_CMD for a word that is none of the nine, CFG_INVALID and SEQUENCE for a legal one. -/
def Obligations.TakenErrorsAreRecordedExactly : Prop :=
  ∀ (s : State) (w : Word) (rest : List Event), s.script = submission w :: rest → s.status.busy = false →
    s.status.err = false →
    (w ∉ nineWords → step s = .next (withTakenError (withScript s rest) .illegalCmd (w.extractLsb' 0 8))) ∧
    (∀ i code, decode w = .ok i → Raises s i code →
      step s = .next (withTakenError (withScript s rest) code (w.extractLsb' 0 8)))

/-! ### Completion of each command -/

/-- R73: NOP completes with DONE and changes nothing else. -/
def Obligations.NopCompletes : Prop :=
  ∀ s : State, s.status.busy = true → s.curOp = 0x00 →
    exec .nop s = .next { s with status := { s.status with done := true, busy := false } }

/-- R89: RS_ENCODE completes with the EC codewords of every block in ECBUF; every other byte and register stays. -/
def Obligations.RsEncodeCompletes : Prop :=
  ∀ s : State, s.status.busy = true → s.curOp = 0x10 → Valid s →
    ∃ t, exec .rsEncode s = .next t ∧
      t = { s with status := { s.status with phase := .ecDone, done := true, busy := false }, mem := t.mem } ∧
      (∀ b j, b < s.row.n → j < s.row.e →
        (rsRemainder (blockData s b) s.row.e)[j]? = some (t.readRam (0x02000 + (b * s.row.e + j)))) ∧
      (∀ a, ¬ InEc s a → t.readRam a = s.readRam a)

/-- R90: INTERLEAVE completes with the interleaved stream of T codewords in CWBUF; every other byte and register stays. -/
def Obligations.InterleaveCompletes : Prop :=
  ∀ s : State, s.status.busy = true → s.curOp = 0x11 → Valid s →
    ∃ t, exec .interleave s = .next t ∧
      t = { s with status := { s.status with phase := .ilDone, done := true, busy := false }, mem := t.mem } ∧
      (streamOf s fun k => s.readRam (0x02000 + k)).length = s.total ∧
      (∀ j, j < s.total → (streamOf s fun k => s.readRam (0x02000 + k))[j]? = some (t.readRam (0x03000 + j))) ∧
      (∀ a, ¬ InCw s a → t.readRam a = s.readRam a)

/-- R99, R100: BUILD_FUNC completes with every symbol cell as the patterns give it; every other byte and register stays. -/
def Obligations.BuildFuncCompletes : Prop :=
  ∀ s : State, s.status.busy = true → s.curOp = 0x20 → Valid s →
    ∃ t, exec .buildFunc s = .next t ∧
      t = { s with status := { s.status with phase := .funcDone, done := true, busy := false }, mem := t.mem } ∧
      (∀ r c, r < s.side → c < s.side → t.readCell r c = drawnCell s.version r c) ∧
      (∀ a, ¬ InSymbol s a → t.readRam a = s.readRam a)

/-- R104: PLACE completes on a symbol whose order has 8·T + REM cells and whose other cells are set, column 6 among them:
cell Z[j] gets bit j, function modules keep their cells, every other byte and register stays. -/
def Obligations.PlaceCompletes : Prop :=
  ∀ s : State, s.status.busy = true → s.curOp = 0x21 → Valid s →
    (orderOf s).length = 8 * s.total + remOf s.version →
    (∀ r c, r < s.side → c < s.side → (s.readCell r c).func = true → (s.readCell r c).set = true) →
    (∀ r, r < s.side → (s.readCell r 6).func = true) →
    ∃ t, exec .place s = .next t ∧
      t = { s with status := { s.status with phase := .placed, done := true, busy := false }, mem := t.mem } ∧
      (∀ j p, (orderOf s)[j]? = some p → t.readCell p.1 p.2 = ⟨true, false, false, streamBit s j⟩) ∧
      (∀ r c, r < s.side → c < s.side → (s.readCell r c).func = true → t.readCell r c = s.readCell r c) ∧
      (∀ a, ¬ InSymbol s a → t.readRam a = s.readRam a)

/-- R124: PLACE on a symbol whose order has another number of cells raises INTERNAL: the error is recorded, PHASE is IDLE,
DONE stays, and only the symbol cells may change (to unspecified contents, log 6). -/
def Obligations.PlaceRaisesInternal : Prop :=
  ∀ s : State, s.status.busy = true → s.curOp = 0x21 → Valid s →
    (orderOf s).length ≠ 8 * s.total + remOf s.version →
    ∃ t, exec .place s = .next t ∧
      t = { s with
        status := { s.status with phase := .idle, busy := false, err := true, errcode := .internal }
        errinfo := ⟨0x21, s.status.phase, false⟩
        draws := s.draws + 1
        mem := t.mem } ∧
      (∀ a, ¬ InSymbol s a → t.readRam a = s.readRam a)

/-- R119: SCORE completes with the four penalties and the total of each masked copy; the storage and every other register
stay. -/
def Obligations.ScoreCompletes : Prop :=
  ∀ s : State, s.status.busy = true → s.curOp = 0x22 → Valid s →
    ∃ t, exec .score s = .next t ∧
      t = { s with
        status := { s.status with phase := .scored, done := true, busy := false }
        pen := t.pen
        pentot := t.pentot } ∧
      (∀ k : Fin 8, t.pen[k] = ⟨BitVec.ofNat 32 (pen1 s.side (maskedColours s k)), BitVec.ofNat 32 (pen2 (maskedColours s k)),
        BitVec.ofNat 32 (pen3 s.side (maskedColours s k)), BitVec.ofNat 32 (pen4 s.side (maskedColours s k))⟩) ∧
      (∀ k : Fin 8, t.pentot[k] = (t.pen[k]).p1 + (t.pen[k]).p2 + (t.pen[k]).p3 + (t.pen[k]).p4)

/-- R120, R121: FINALIZE completes with the least mask of the smallest total applied to the data modules, each format and
version bit in its two cells, and no other plane, byte or register changed. -/
def Obligations.FinalizeCompletes : Prop :=
  ∀ s : State, s.status.busy = true → s.curOp = 0x23 → Valid s →
    ∃ (t : State) (best : Fin 8), exec .finalize s = .next t ∧ IsBest s.pentot best ∧
      t = { s with
        status := { s.status with phase := .final, done := true, busy := false, mask := BitVec.ofNat 3 best.val }
        mem := t.mem } ∧
      (∀ r c, r < s.side → c < s.side → (t.readCell r c).set = (s.readCell r c).set ∧
        (t.readCell r c).func = (s.readCell r c).func ∧ (t.readCell r c).rsv = (s.readCell r c).rsv) ∧
      (∀ i, i < 15 → ∀ p ∈ formatSpots s.side i,
        (t.readCell p.1 p.2).dark = (fmtWord s.cfg.ecl best.val).getLsbD i) ∧
      (7 ≤ s.version → ∀ i, i < 18 → ∀ p ∈ versionSpots s.side i,
        (t.readCell p.1 p.2).dark = (verWord s.version).getLsbD i) ∧
      (∀ r c, r < s.side → c < s.side → isFormatCell s.version r c = false → isVersionCell s.version r c = false →
        (t.readCell r c).dark = ((s.readCell r c).dark ^^ (!(s.readCell r c).func && maskCond best.val r c))) ∧
      (∀ a, ¬ InSymbol s a → t.readRam a = s.readRam a)

/-- R75: RUN completes without error from any storage contents under a valid CFG: PHASE is FINAL, ECBUF and CWBUF hold the
codewords of DBUF, every symbol cell is set, MASK is the selected mask, and the rest stays. -/
def Obligations.RunCompletes : Prop :=
  ∀ s : State, s.status.busy = true → s.curOp = 0x30 → Valid s →
    ∃ (t : State) (best : Fin 8), exec .run s = .next t ∧ IsBest t.pentot best ∧
      t = { s with
        status := { s.status with phase := .final, done := true, busy := false, mask := BitVec.ofNat 3 best.val }
        pen := t.pen
        pentot := t.pentot
        mem := t.mem } ∧
      (∀ b j, b < s.row.n → j < s.row.e →
        (rsRemainder (blockData s b) s.row.e)[j]? = some (t.readRam (0x02000 + (b * s.row.e + j)))) ∧
      (∀ j, j < s.total → (streamOf s fun k => t.readRam (0x02000 + k))[j]? = some (t.readRam (0x03000 + j))) ∧
      (∀ r c, r < s.side → c < s.side → (t.readCell r c).set = true) ∧
      (∀ a, ¬ InEc s a → ¬ InCw s a → ¬ InSymbol s a → t.readRam a = s.readRam a)

/-- R74, R140: SOFT_RESET is performed in every state: STATUS, ERRINFO, CUR_OP, PEN and PENTOT become 0; CFG and IEN stay;
with nothing running the storage stays, and an abort leaves every byte outside the aborted command's region (which becomes
unspecified, log 6). With a command other than NOP running the CFG is valid, as it is in every state a run reaches. -/
def Obligations.SoftResetIsPerformed : Prop :=
  ∀ s : State, (s.status.busy = true → s.curOp ≠ 0x00 → Valid s) →
    ∃ t, exec .softReset s = .next t ∧
      t = { s with
        status := ⟨false, false, false, .none, 0, .idle⟩
        errinfo := ⟨0, .idle, false⟩
        curOp := 0x00
        pen := Vector.replicate 8 ⟨0, 0, 0, 0⟩
        pentot := Vector.replicate 8 0
        resp := some ⟨false, none⟩
        draws := t.draws
        mem := t.mem } ∧
      (s.status.busy = false → t.mem = s.mem ∧ t.draws = s.draws) ∧
      (∀ a, ¬ InOutput s a → t.readRam a = s.readRam a)

/-! ### Runs -/

/-- R76: the RUN command and the six commands issued one after another from the same state reach the same storage, scores,
mask and phase, when RUN completes without error. -/
def Obligations.RunEqualsTheSixCommands : Prop :=
  ∀ s t : State, s.status.busy = false → s.status.err = false →
    Sys2Proof.core.run 2 (withScript s (issueAll [.run])) = .next t → t.status.err = false →
    ∃ u, Sys2Proof.core.run 12
        (withScript s (issueAll [.rsEncode, .interleave, .buildFunc, .place, .score, .finalize])) = .next u ∧
      u.mem = t.mem ∧ u.pen = t.pen ∧ u.pentot = t.pentot ∧ u.status = t.status

/-! ### Reset -/

/-- R138: the state after reset; each storage byte is the free value POWER_ON_RAM (log 5). That the model's own fields are
empty or 0 is the model's choice (log 7). -/
def Obligations.ResetValues : Prop :=
  State.reset.registerWord 0x000 = 0x51520007 ∧
  (∀ off ∈ [0x004, 0x008, 0x00C, 0x010, 0x014, 0x018, 0x01C, 0x020], State.reset.registerWord off = 0) ∧
  (∀ m : Fin 8, State.reset.pen[m] = ⟨0, 0, 0, 0⟩ ∧ State.reset.pentot[m] = 0) ∧
  State.reset.curOp = 0x00 ∧ State.reset.irq = false ∧
  (∀ a, State.reset.readRam a = Config.powerOnRam State.reset.powerOns a) ∧
  (∀ a, State.reset.windowByte a = 0) ∧
  State.reset.script = [] ∧ State.reset.resp = none ∧ State.reset.powerOns = 0 ∧ State.reset.draws = 0

/-- R138: hardware reset puts every register in its reset value whatever the block was doing. That the storage shows a fresh
draw of POWER_ON_RAM and that the events to come stay is the model's choice (log 5, log 11). -/
def Obligations.HardResetFromAnyState : Prop :=
  ∀ (s : State) (rest : List Event), s.script = .hardReset :: rest →
    ∃ t, step s = .next t ∧
      t = { State.reset with powerOns := s.powerOns + 1, draws := s.draws, script := rest } ∧
      ∀ a, t.readRam a = Config.powerOnRam (s.powerOns + 1) a

/-! ### The invariant -/

/-- The state after reset meets the invariant. -/
def Obligations.ResetMeetsTheInvariant : Prop := State.reset.Inv

/-- Every step keeps the invariant: the storage keeps its canonical form, the flags agree, an accepted command keeps its
acceptance checks, PENTOT stays the sum of PEN, and the matrix is as R43 says. -/
def Obligations.StepKeepsTheInvariant : Prop :=
  ∀ s t : State, s.Inv → step s = .next t → t.Inv

/-- From a state that meets the invariant no step faults or refuses (R34, R71). That an accepted command completes in the
very step that finds no event left is the model's choice (log 1): R71 says only that it completes eventually. -/
def Obligations.NoStepStops : Prop :=
  ∀ s : State, s.Inv → ∃ t, step s = .next t ∧ (s.script = [] → s.status.busy = true → t.status.busy = false)

/-- R125: from a state that meets the invariant no step raises INTERNAL. -/
def Obligations.NoStepRaisesInternal : Prop :=
  ∀ s t : State, s.Inv → step s = .next t → t.status.errcode = .internal → s.status.errcode = .internal

/-- A completion step changes no input: CFG, IEN, DBUF, the ECBUF bytes from N·E on, the CWBUF bytes from T on and the cells
outside the symbol stay (R18, R37 to R40), as do the script and the last answer. -/
def Obligations.CompletionKeepsInputs : Prop :=
  ∀ (s t : State) (i : Instr), s.status.busy = true → s.running = some i → (i ≠ .nop → Valid s) → exec i s = .next t →
    t.cfg = s.cfg ∧ t.ien = s.ien ∧ t.script = s.script ∧ t.resp = s.resp ∧ t.powerOns = s.powerOns ∧
    (∀ a, ¬ InEc s a → ¬ InCw s a → ¬ InSymbol s a → t.readRam a = s.readRam a)

/-- R33: PHASE changes only by a completion step, SOFT_RESET, hardware reset, or a host write to CFG or DBUF. -/
def Obligations.OnlyTheseEventsChangePhase : Prop :=
  ∀ s t : State, step s = .next t → t.status.phase ≠ s.status.phase →
    (EngineNext s ∧ s.status.busy = true) ∨
    (∃ rest, s.script = .hardReset :: rest) ∨
    (∃ rest, s.script = submission 0x00000001 :: rest) ∨
    (∃ h rest, s.script = .host h :: rest ∧ isWrite h = true ∧
      (accessAddr h = 0x00004 ∨ (0x01000 ≤ accessAddr h ∧ accessAddr h < 0x02000)))

/-- R127: ERR goes from 1 to 0 only by a STATUS write with bit 2 set, by SOFT_RESET, or by hardware reset; and it goes from
0 to 1 only in a CMD write or a completion step. -/
def Obligations.OnlyTheseEventsChangeErr : Prop :=
  ∀ s t : State, step s = .next t →
    (s.status.err = true → t.status.err = false →
      (∃ w rest, s.script = .host (.wr32 0x0000C w) :: rest ∧ w.getLsbD 2 = true) ∨
      (∃ rest, s.script = submission 0x00000001 :: rest) ∨ (∃ rest, s.script = .hardReset :: rest)) ∧
    (s.status.err = false → t.status.err = true →
      (∃ w rest, s.script = submission w :: rest ∧ s.status.busy = false) ∨ (EngineNext s ∧ s.status.busy = true))

/-! ### The host port -/

/-- R129: an access is answered SLVERR exactly for its seven causes and then has no effect but the answer. -/
def Obligations.SlverrExactlyForItsCauses : Prop :=
  ∀ (s : State) (h : HostAccess) (rest : List Event), s.script = .host h :: rest →
    ∃ t, step s = .next t ∧
      (SlverrCause s h → t = { s with script := rest, resp := some ⟨true, if isWrite h then none else some 0⟩ }) ∧
      (¬ SlverrCause s h → ∃ d, t.resp = some ⟨false, d⟩ ∧ (d = none ↔ isWrite h = true))

/-- R53, R45: a read is answered with the data of its address, or SLVERR and 0 where there is none, and changes nothing but
the answer. -/
def Obligations.ReadsHaveNoSideEffects : Prop :=
  ∀ (s : State) (h : HostAccess) (rest : List Event), s.script = .host h :: rest → isWrite h = false →
    step s = .next { s with
      script := rest
      resp := some (readAnswer (hostReadData (accessAddr h) (accessSize h) s)) }

/-- R142: while BUSY no access but the SOFT_RESET word changes CFG, the storage, PEN, PENTOT, CUR_OP, BUSY, PHASE or MASK. -/
def Obligations.BusyProtectsTheRunningCommand : Prop :=
  ∀ (s t : State) (h : HostAccess) (rest : List Event), s.script = .host h :: rest → s.status.busy = true →
    Event.host h ≠ submission 0x00000001 → step s = .next t →
    t.cfg = s.cfg ∧ t.mem = s.mem ∧ t.powerOns = s.powerOns ∧ t.draws = s.draws ∧ t.pen = s.pen ∧ t.pentot = s.pentot ∧
    t.curOp = s.curOp ∧ t.status.busy = true ∧ t.status.phase = s.status.phase ∧ t.status.mask = s.status.mask

/-- R54: a write to CFG, or of any size to DBUF, answered OK sets PHASE to IDLE and changes nothing in ECBUF, CWBUF, MATRIX,
PEN or PENTOT. -/
def Obligations.InputWritesSetPhaseIdle : Prop :=
  ∀ (s t : State) (h : HostAccess) (d : Option Word) (rest : List Event), s.script = .host h :: rest → isWrite h = true →
    (accessAddr h = 0x00004 ∨ (0x01000 ≤ accessAddr h ∧ accessAddr h < 0x02000)) → step s = .next t →
    t.resp = some ⟨false, d⟩ →
    t.status = { s.status with phase := .idle } ∧ t.pen = s.pen ∧ t.pentot = s.pentot ∧
    (∀ a, 0x02000 ≤ a → t.readRam a = s.readRam a)

/-- R50: a write of n = 1, 2 or 4 bytes to DBUF stores the n bytes of its value little-endian; a read of n bytes gives them
back, a 1-byte read the lowest; no other byte and no other register changes but PHASE. A read of n bytes of DBUF, and of ECBUF
and CWBUF while BUSY = 0, gives the little-endian value of the stored bytes. -/
def Obligations.DbufWordWriteIsLittleEndian : Prop :=
  (∀ (s : State) (n : Nat) (a : BitVec 17) (v : Word) (rest : List Event), s.script = .host (writeOf n a v) :: rest →
    n ∈ [1, 2, 4] → s.status.busy = false → 0x01000 ≤ a.toNat → a.toNat + n ≤ 0x02000 → a.toNat % n = 0 →
    ∃ t, step s = .next t ∧
      t = { s with
        script := rest
        status := { s.status with phase := .idle }
        resp := some ⟨false, none⟩
        mem := t.mem } ∧
      (∀ i, i < n → t.readRam (a.toNat + i) = v.extractLsb' (8 * i) 8) ∧
      (∀ b, ¬ (a.toNat ≤ b ∧ b < a.toNat + n) → t.readRam b = s.readRam b) ∧
      hostReadData a.toNat n t = some ((v.setWidth (8 * n)).setWidth 32) ∧
      hostReadData a.toNat 1 t = some ((v.extractLsb' 0 8).setWidth 32)) ∧
  (∀ (s : State) (n a : Nat), n ∈ [1, 2, 4] → a % n = 0 →
    (0x01000 ≤ a → a + n ≤ 0x02000 → hostReadData a n s = some (bytesValue s a n)) ∧
    (s.status.busy = false → 0x02000 ≤ a → a + n ≤ 0x04000 → hostReadData a n s = some (bytesValue s a n)))

/-- R21: a write to CFG while BUSY = 0 stores VERSION and ECL as written and sets PHASE to IDLE; CFG then reads as the word
with its reserved bits 0. -/
def Obligations.CfgReadsBackUnderItsMask : Prop :=
  ∀ (s : State) (w : Word) (rest : List Event), s.script = .host (.wr32 0x00004 w) :: rest → s.status.busy = false →
    ∃ t, step s = .next t ∧
      t = { s with
        script := rest
        cfg := ⟨w.extractLsb' 0 6, w.extractLsb' 8 2⟩
        status := { s.status with phase := .idle }
        resp := some ⟨false, none⟩ } ∧
      t.registerWord 0x004 = w &&& 0x0000033F ∧ hostReadData 0x004 4 t = some (w &&& 0x0000033F)

/-- R26: a write to IEN is answered OK in every state and changes only its two bits; IEN reads them back, its other bits
read 0, and it is 0 after reset. -/
def Obligations.IenWriteChangesTwoBits : Prop :=
  State.reset.registerWord 0x010 = 0 ∧
  ∀ (s : State) (w : Word) (rest : List Event), s.script = .host (.wr32 0x00010 w) :: rest →
    ∃ t, step s = .next t ∧
      t = { s with script := rest, ien := ⟨w.getLsbD 0, w.getLsbD 1⟩, resp := some ⟨false, none⟩ } ∧
      t.registerWord 0x010 = w &&& 0x00000003 ∧ hostReadData 0x010 4 t = some (w &&& 0x00000003)

/-- R25: a write to STATUS is answered OK in every state and clears exactly what its bits 1 and 2 name. -/
def Obligations.StatusWriteClearsByBit : Prop :=
  ∀ (s : State) (w : Word) (rest : List Event), s.script = .host (.wr32 0x0000C w) :: rest →
    step s = .next { s with
      script := rest
      resp := some ⟨false, none⟩
      status := { s.status with
        done := if w.getLsbD 1 then false else s.status.done
        err := if w.getLsbD 2 then false else s.status.err
        errcode := if w.getLsbD 2 then .none else s.status.errcode }
      errinfo := if w.getLsbD 2 then ⟨0, .idle, false⟩ else s.errinfo }

/-- R20, R21, R23, R24, R26, R27: in every state ID reads 0x51520007 and CMD reads 0; the fields of CFG, STATUS, IEN and ERRINFO
stand at their bits and the reserved bits read 0; and a 4-byte host read of any register of 0x000 … 0x020 gives its word. -/
def Obligations.StatusAndErrinfoFields : Prop :=
  ∀ s : State,
    (∀ off ∈ [0x000, 0x004, 0x008, 0x00C, 0x010, 0x014, 0x018, 0x01C, 0x020],
      hostReadData off 4 s = some (s.registerWord off)) ∧
    s.registerWord 0x000 = 0x51520007 ∧ s.registerWord 0x008 = 0 ∧
    (s.registerWord 0x004).extractLsb' 0 6 = s.cfg.version ∧ (s.registerWord 0x004).extractLsb' 6 2 = 0 ∧
    (s.registerWord 0x004).extractLsb' 8 2 = s.cfg.ecl ∧ (s.registerWord 0x004).extractLsb' 10 22 = 0 ∧
    (s.registerWord 0x00C).getLsbD 0 = s.status.busy ∧ (s.registerWord 0x00C).getLsbD 1 = s.status.done ∧
    (s.registerWord 0x00C).getLsbD 2 = s.status.err ∧ (s.registerWord 0x00C).getLsbD 3 = s.irq ∧
    ((s.registerWord 0x00C).extractLsb' 4 4).toNat = s.status.errcode.code ∧
    (s.registerWord 0x00C).extractLsb' 8 3 = s.status.mask ∧ (s.registerWord 0x00C).getLsbD 11 = false ∧
    ((s.registerWord 0x00C).extractLsb' 12 3).toNat = s.status.phase.code ∧
    (s.registerWord 0x00C).extractLsb' 15 17 = 0 ∧
    (s.registerWord 0x010).getLsbD 0 = s.ien.doneIe ∧ (s.registerWord 0x010).getLsbD 1 = s.ien.errIe ∧
    (s.registerWord 0x010).extractLsb' 2 30 = 0 ∧
    (s.registerWord 0x014).extractLsb' 0 8 = s.errinfo.opc ∧
    ((s.registerWord 0x014).extractLsb' 8 3).toNat = s.errinfo.phaseAt.code ∧
    (s.registerWord 0x014).getLsbD 11 = s.errinfo.inRun ∧ (s.registerWord 0x014).extractLsb' 12 20 = 0

/-- R36: irq is the OR of the enabled sources, STATUS.IRQ reads the same value, and it is 0 after reset. -/
def Obligations.IrqIsTheOrOfEnabledFlags : Prop :=
  (∀ s : State, (s.irq = true ↔ (s.status.done = true ∧ s.ien.doneIe = true) ∨ (s.status.err = true ∧ s.ien.errIe = true)) ∧
    (s.registerWord 0x00C).getLsbD 3 = s.irq) ∧
  State.reset.irq = false

/-- R131: irq changes only at a completion step, a CMD write, a STATUS or IEN write, or hardware reset. -/
def Obligations.OnlyTheseEventsChangeIrq : Prop :=
  ∀ s t : State, step s = .next t → t.irq ≠ s.irq →
    (EngineNext s ∧ s.status.busy = true) ∨ (∃ rest, s.script = .hardReset :: rest) ∨
    (∃ a w rest, s.script = .host (.wr32 a w) :: rest ∧ a.toNat ∈ [0x00008, 0x0000C, 0x00010])

/-- R28 to R30: GEOM0, GEOM1 and GEOM2 report the geometry of CFG in their fields, read 0 while CFG is not valid, and refuse
writes. -/
def Obligations.GeometryRegisters : Prop :=
  (∀ s : State, Valid s →
    ((s.registerWord 0x018).extractLsb' 0 8).toNat = 4 * s.version + 17 ∧
    ((s.registerWord 0x018).extractLsb' 8 12).toNat = s.row.k ∧ (s.registerWord 0x018).extractLsb' 20 12 = 0 ∧
    ((s.registerWord 0x01C).extractLsb' 0 12).toNat = s.total ∧ ((s.registerWord 0x01C).extractLsb' 12 5).toNat = s.row.e ∧
    ((s.registerWord 0x01C).extractLsb' 17 7).toNat = s.row.n ∧
    ((s.registerWord 0x01C).extractLsb' 24 3).toNat = remOf s.version ∧ (s.registerWord 0x01C).extractLsb' 27 5 = 0 ∧
    ((s.registerWord 0x020).extractLsb' 0 7).toNat = s.row.n1 ∧ ((s.registerWord 0x020).extractLsb' 8 7).toNat = s.row.k1 ∧
    ((s.registerWord 0x020).extractLsb' 16 7).toNat = s.row.n2 ∧ ((s.registerWord 0x020).extractLsb' 24 7).toNat = s.row.k2 ∧
    (∀ i ∈ [7, 15, 23, 31], (s.registerWord 0x020).getLsbD i = false)) ∧
  (∀ s : State, ¬ Valid s → ∀ off ∈ [0x018, 0x01C, 0x020], s.registerWord off = 0) ∧
  (∀ (s : State) (w : Word), ∀ off ∈ [0x018, 0x01C, 0x020], hostReadData off 4 s = some (s.registerWord off) ∧
    ∀ n ∈ [1, 2, 4], hostWrite off n w s = .next { s with resp := some ⟨true, none⟩ })

/-- R51, R42: a read of n = 1, 2 or 4 bytes of the MATRIX window at cell (r, c) while BUSY = 0 gives the cell bytes of (r, c) to
(r, c + n − 1), cell (r, c) in bits [7:0]: the planes of each cell inside the symbol, and 0 for each cell outside it. -/
def Obligations.MatrixWindowShowsTheSymbol : Prop :=
  ∀ (s : State) (n r c : Nat), s.status.busy = false → n ∈ [1, 2, 4] → r < 256 → c < 256 → c % n = 0 →
    ∃ w, hostReadData (0x10000 + 256 * r + c) n s = some w ∧
      (∀ i, i < n → Valid s → r < s.side → c + i < s.side →
        w.getLsbD (8 * i) = (s.readCell r (c + i)).dark ∧ w.getLsbD (8 * i + 1) = (s.readCell r (c + i)).func ∧
        w.getLsbD (8 * i + 2) = (s.readCell r (c + i)).set ∧ w.getLsbD (8 * i + 3) = (s.readCell r (c + i)).rsv ∧
        w.extractLsb' (8 * i + 4) 4 = 0) ∧
      (∀ i, i < n → ¬ (Valid s ∧ r < s.side ∧ c + i < s.side) → w.extractLsb' (8 * i) 8 = 0) ∧
      (∀ k, 8 * n ≤ k → w.getLsbD k = false)

/-- R31, R32: while BUSY = 0 PEN[m][j] reads at 0x100 + 16·m + 4·j and PENTOT[m] at 0x180 + 4·m. -/
def Obligations.PenaltyRegistersAreReadAtTheirOffsets : Prop :=
  ∀ (s : State) (m : Fin 8), s.status.busy = false →
    hostReadData (0x00100 + 16 * m.val) 4 s = some (s.pen[m]).p1 ∧
    hostReadData (0x00104 + 16 * m.val) 4 s = some (s.pen[m]).p2 ∧
    hostReadData (0x00108 + 16 * m.val) 4 s = some (s.pen[m]).p3 ∧
    hostReadData (0x0010C + 16 * m.val) 4 s = some (s.pen[m]).p4 ∧
    hostReadData (0x00180 + 4 * m.val) 4 s = some s.pentot[m]

/-! ### The field, the generators and the remainder (41_ec_encoder.md) -/

/-- R79: the field laws of gfmul over gfadd. -/
def Obligations.FieldLawsHold : Prop :=
  ∀ a b c : Byte, gfmul a b = gfmul b a ∧ gfmul (gfmul a b) c = gfmul a (gfmul b c) ∧
    gfmul a (gfadd b c) = gfadd (gfmul a b) (gfmul a c) ∧ gfmul a 0x01 = a ∧ gfmul a 0x00 = 0x00 ∧
    (a ≠ 0x00 → ∃ d, gfmul a d = 0x01)

/-- R80: α is primitive, the tables are those of its powers, and multiplication by the tables is gfmul. -/
def Obligations.TablesMultiplyAsTheField : Prop :=
  (∀ i j, i < 255 → j < 255 → alphaPow i = alphaPow j → i = j) ∧ (∀ a : Byte, a ≠ 0 → ∃ i, i < 255 ∧ alphaPow i = a) ∧
  alphaPow 255 = 0x01 ∧ (∀ i, i < 256 → gfExp i = alphaPow i) ∧ (∀ i, i < 255 → gfLog (gfExp i) = some i) ∧
  (∀ a b : Byte, gfmulByTables a b = gfmul a b)

/-- R81: the generator polynomials of the smallest, a middle and the largest degree, as exponents of α. -/
def Obligations.GeneratorPolynomialsMatchTheTable : Prop :=
  (genpoly 7).map gfLog = [0, 87, 229, 146, 149, 238, 102, 21].map some ∧
  (genpoly 18).map gfLog =
    [0, 215, 234, 158, 94, 184, 97, 118, 170, 79, 187, 152, 148, 252, 179, 5, 98, 96, 153].map some ∧
  (genpoly 30).map gfLog = [0, 41, 173, 145, 152, 216, 31, 179, 182, 50, 48, 110, 86, 239, 96, 222, 125, 42, 173, 226, 193,
    224, 130, 156, 37, 251, 216, 238, 40, 192, 180].map some

/-- R88: the remainder has E codewords, is GF(2)-linear, is 0 for zero data, ignores leading zeros, and is G_E[1 .. E] for
[0x01]. -/
def Obligations.RemainderIsLinear : Prop :=
  ∀ (e : Nat) (d d' : List Byte), (rsRemainder d e).length = e ∧
    (d.length = d'.length → rsRemainder (List.zipWith (· ^^^ ·) d d') e =
      List.zipWith (· ^^^ ·) (rsRemainder d e) (rsRemainder d' e)) ∧
    (∀ k, rsRemainder (List.replicate k 0) e = List.replicate e 0) ∧
    rsRemainder (0 :: d) e = rsRemainder d e ∧ rsRemainder [0x01] e = (genpoly e).tail

/-- R88: the codeword polynomial D(x)·x^E + R(x) is zero at α^0 … α^(E−1). -/
def Obligations.CodewordHasZeroSyndromes : Prop :=
  ∀ (e : Nat) (d : List Byte) (i : Nat), i < e → polyEval (d ++ rsRemainder d e) (alphaPow i) = 0

/-! ### The tables -/

/-- R85: every row of the block table satisfies the relations of the rule. -/
def Obligations.BlockTableRelations : Prop :=
  ∀ v l, 1 ≤ v → v ≤ 40 → l < 4 →
    (1 ≤ (blockRow v l).n ∧ (blockRow v l).n = (blockRow v l).n1 + (blockRow v l).n2) ∧
    (blockRow v l).n2 < (blockRow v l).n ∧
    (0 < (blockRow v l).n2 → (blockRow v l).k2 = (blockRow v l).k1 + 1) ∧
    (blockRow v l).k + (blockRow v l).n * (blockRow v l).e = totalOf v ∧ 1 ≤ (blockRow v l).k1 ∧ (blockRow v l).e ≤ 30 ∧
    (blockRow v l).n ≤ 81 ∧ (blockRow v l).k ≤ 2956 ∧ (blockRow v l).n * (blockRow v l).e ≤ 2430 ∧ totalOf v ≤ 3706 ∧
    (l < 3 → (blockRow v (l + 1)).k < (blockRow v l).k)

/-- R83: the formula gives raw(V), and its A is the number of alignment coordinates. The coordinates P(V) are those of the
formula in R94. -/
def Obligations.RawCountFormula : Prop :=
  ∀ v, 1 ≤ v → v ≤ 40 → (2 ≤ v → (alignOf v).length = v / 7 + 2) ∧ alignOf v = alignByStep v ∧
    (rawOf v : Int) = (16 * v + 128) * v + 64 -
      (if 2 ≤ v then (25 * ((v / 7 + 2 : Nat) : Int) - 10) * ((v / 7 + 2 : Nat) : Int) - 55 else 0) -
      (if 7 ≤ v then 36 else 0)

/-- R116 to R118: the format and version words of sample configurations; the 32 format words are non-zero and any two differ
in at least 7 bits; the 34 version words are distinct and their top six bits are V. -/
def Obligations.InformationWordsAreFarApart : Prop :=
  fmtWord 0 0 = 0x77C4 ∧ fmtWord 1 0 = 0x5412 ∧ fmtWord 2 7 = 0x2BED ∧ fmtWord 3 3 = 0x19D0 ∧
  verWord 7 = 0x07C94 ∧ verWord 40 = 0x28C69 ∧
  (∀ e e' : Fin 4, ∀ k k' : Fin 8, fmtWord (BitVec.ofNat 2 e.val) k.val ≠ 0 ∧
    ((e, k) ≠ (e', k') → 7 ≤ ((List.range 15).filter fun i =>
      (fmtWord (BitVec.ofNat 2 e.val) k.val ^^^ fmtWord (BitVec.ofNat 2 e'.val) k'.val).getLsbD i).length)) ∧
  (∀ v v', 7 ≤ v → v ≤ 40 → 7 ≤ v' → v' ≤ 40 → (verWord v).toNat / 2 ^ 12 = v ∧ (verWord v = verWord v' → v = v'))

/-! ### The matrix -/

/-- R100: the cell after BUILD_FUNC's drawings is that of the highest entry it falls in. -/
def Obligations.LastDrawingWins : Prop :=
  ∀ v r c, 1 ≤ v → v ≤ 40 → r < 4 * v + 17 → c < 4 * v + 17 → (funcGrid v).get r c = drawnCell v r c

/-- R101: after BUILD_FUNC's drawings the symbol has 8·T + REM = raw(V) cells with FUNC = 0 and 30 or 66 with RSV = 1. -/
def Obligations.FunctionModuleCounts : Prop :=
  ∀ v, 1 ≤ v → v ≤ 40 →
    ((positions (4 * v + 17)).filter fun p => !((funcGrid v).get p.1 p.2).func).length = 8 * totalOf v + remOf v ∧
    8 * totalOf v + remOf v = rawOf v ∧
    ((positions (4 * v + 17)).filter fun p => ((funcGrid v).get p.1 p.2).rsv).length = if v < 7 then 30 else 66

/-- R102: the traversal visits the cells with FUNC = 0 in the order of the column pairs. -/
def Obligations.TraversalFollowsTheColumnPairs : Prop :=
  ∀ (v : Nat) (func : Nat → Nat → Bool), 1 ≤ v → v ≤ 40 →
    zigzag (4 * v + 17) (Grid.tabulate (4 * v + 17) fun r c => ⟨true, func r c, false, false⟩) =
      placementOrder (4 * v + 17) func

/-- R105, R107: the eight conditions, each by what it says of divisibility; a mask applied twice restores the matrix, changes
only cells with FUNC = 0 and only their DARK plane; every condition holds at (0, 0); two masks whose conditions disagree on a
data module give different copies of a matrix, and in every version any two of the eight disagree on some data module. -/
def Obligations.MaskingTwiceRestores : Prop :=
  (∀ r c : Nat, (maskCond 0 r c = true ↔ 2 ∣ r + c) ∧ (maskCond 1 r c = true ↔ 2 ∣ r) ∧ (maskCond 2 r c = true ↔ 3 ∣ c) ∧
    (maskCond 3 r c = true ↔ 3 ∣ r + c) ∧ (maskCond 4 r c = true ↔ 2 ∣ r / 2 + c / 3) ∧ (maskCond 5 r c = true ↔ 6 ∣ r * c) ∧
    (maskCond 6 r c = true ↔ r * c % 6 ≤ 2) ∧ (maskCond 7 r c = true ↔ 2 ∣ r + c + r * c % 3)) ∧
  (∀ (k : Nat) (g : Grid), maskGrid k (maskGrid k g) = g) ∧
  (∀ (k r c : Nat) (x : Cell), (x.func = true → maskCell k r c x = x) ∧
    maskCell k r c x = { x with dark := (maskCell k r c x).dark }) ∧
  (∀ k, k < 8 → maskCond k 0 0 = true) ∧
  (∀ (n k k' r c : Nat) (f : Nat → Nat → Cell), r < n → c < n → (f r c).func = false → maskCond k r c ≠ maskCond k' r c →
    maskGrid k (Grid.tabulate n f) ≠ maskGrid k' (Grid.tabulate n f)) ∧
  (∀ v k k', 1 ≤ v → v ≤ 40 → k < 8 → k' < 8 → k ≠ k' → ∃ r c, r < 4 * v + 17 ∧ c < 4 * v + 17 ∧
    ((funcGrid v).get r c).func = false ∧ maskCond k r c ≠ maskCond k' r c)

/-! ### The penalties -/

/-- R109: rule 1 scores 3 + (L − 5) for every maximal run of L ≥ 5 cells of one colour in every row and column. -/
def Obligations.RuleOneScoresMaximalRuns : Prop :=
  ∀ (n : Nat) (x : List (List Bool)), IsSquareArray n x →
    pen1 n x = ((allLines n x).map fun l =>
      ((l.splitBy (· == ·)).map fun run => if 5 ≤ run.length then 3 + (run.length - 5) else 0).sum).sum

/-- R110: rule 2 is three times the number of positions whose 2 × 2 block is all one colour. -/
def Obligations.RuleTwoCountsBlocks : Prop :=
  ∀ (n : Nat) (x : List (List Bool)), IsSquareArray n x →
    pen2 x = 3 * ((positions (n - 1)).filter fun p =>
      colourAt x p.1 p.2 = colourAt x p.1 (p.2 + 1) ∧ colourAt x p.1 p.2 = colourAt x (p.1 + 1) p.2 ∧
      colourAt x p.1 p.2 = colourAt x (p.1 + 1) (p.2 + 1)).length

/-- R111: rule 3 is forty times the number of windows of 11 cells in rows and columns that equal one of the two patterns. -/
def Obligations.RuleThreeCountsWindows : Prop :=
  ∀ (n : Nat) (x : List (List Bool)), IsSquareArray n x → 11 ≤ n →
    pen3 n x = 40 * ((allLines n x).map fun l => ((List.range (n - 10)).filter fun i =>
      (l.drop i).take 11 = [true, false, true, true, true, false, true, false, false, false, false] ∨
      (l.drop i).take 11 = [false, false, false, false, true, false, true, true, true, false, true]).length).sum

/-- R112: rule 4 is 10 · floor(|20·D − 10·n²| / n²) for D dark cells among n². -/
def Obligations.RuleFourMeasuresBalance : Prop :=
  ∀ (n d : Nat) (x : List (List Bool)), IsSquareArray n x →
    d = ((positions n).filter fun p => colourAt x p.1 p.2).length →
    pen4 n x = 10 * ((if 10 * n ^ 2 ≤ 20 * d then 20 * d - 10 * n ^ 2 else 10 * n ^ 2 - 20 * d) / n ^ 2)

/-- R113: the bounds of the four penalties, and that the registers hold them and their sum without overflow. -/
def Obligations.PenaltiesFitTheirRegisters : Prop :=
  ∀ (v : Nat) (x : List (List Bool)), 1 ≤ v → v ≤ 40 → IsSquareArray (4 * v + 17) x →
    pen1 (4 * v + 17) x ≤ 2 * (4 * v + 17) * (4 * v + 15) ∧ pen2 x ≤ 3 * (4 * v + 16) ^ 2 ∧
    pen3 (4 * v + 17) x ≤ 80 * (4 * v + 17) * (4 * v + 7) ∧ pen4 (4 * v + 17) x ≤ 100 ∧
    pen1 (4 * v + 17) x + pen2 x + pen3 (4 * v + 17) x + pen4 (4 * v + 17) x < 2 ^ 22 ∧
    (penaltiesOf (4 * v + 17) x).p1.toNat = pen1 (4 * v + 17) x ∧ (penaltiesOf (4 * v + 17) x).p2.toNat = pen2 x ∧
    (penaltiesOf (4 * v + 17) x).p3.toNat = pen3 (4 * v + 17) x ∧ (penaltiesOf (4 * v + 17) x).p4.toNat = pen4 (4 * v + 17) x ∧
    (penaltiesOf (4 * v + 17) x).total.toNat =
      pen1 (4 * v + 17) x + pen2 x + pen3 (4 * v + 17) x + pen4 (4 * v + 17) x

/-- R114: the selected mask has the smallest total, and every lower mask a larger one. -/
def Obligations.SelectedMaskIsTheLeastMinimum : Prop :=
  ∀ t : Vector Word 8, IsBest t (selectMask t)
end

