-- ==== Sys2Proof/Laws/State.lean ====
section
/-! SUPPORT. One lemma per field per named update of State: what the update writes and that it writes nothing else. -/

namespace Sys2Proof.Machine

variable (s : State)

@[simp] theorem State.setCfg_cfg (c : Cfg) : (s.setCfg c).cfg = c := rfl
@[simp] theorem State.setCfg_status (c : Cfg) : (s.setCfg c).status = s.status := rfl
@[simp] theorem State.setCfg_ien (c : Cfg) : (s.setCfg c).ien = s.ien := rfl
@[simp] theorem State.setCfg_errinfo (c : Cfg) : (s.setCfg c).errinfo = s.errinfo := rfl
@[simp] theorem State.setCfg_pen (c : Cfg) : (s.setCfg c).pen = s.pen := rfl
@[simp] theorem State.setCfg_pentot (c : Cfg) : (s.setCfg c).pentot = s.pentot := rfl
@[simp] theorem State.setCfg_curOp (c : Cfg) : (s.setCfg c).curOp = s.curOp := rfl
@[simp] theorem State.setCfg_mem (c : Cfg) : (s.setCfg c).mem = s.mem := rfl
@[simp] theorem State.setCfg_powerOns (c : Cfg) : (s.setCfg c).powerOns = s.powerOns := rfl
@[simp] theorem State.setCfg_draws (c : Cfg) : (s.setCfg c).draws = s.draws := rfl
@[simp] theorem State.setCfg_script (c : Cfg) : (s.setCfg c).script = s.script := rfl
@[simp] theorem State.setCfg_resp (c : Cfg) : (s.setCfg c).resp = s.resp := rfl

@[simp] theorem State.setStatus_cfg (t : Status) : (s.setStatus t).cfg = s.cfg := rfl
@[simp] theorem State.setStatus_status (t : Status) : (s.setStatus t).status = t := rfl
@[simp] theorem State.setStatus_ien (t : Status) : (s.setStatus t).ien = s.ien := rfl
@[simp] theorem State.setStatus_errinfo (t : Status) : (s.setStatus t).errinfo = s.errinfo := rfl
@[simp] theorem State.setStatus_pen (t : Status) : (s.setStatus t).pen = s.pen := rfl
@[simp] theorem State.setStatus_pentot (t : Status) : (s.setStatus t).pentot = s.pentot := rfl
@[simp] theorem State.setStatus_curOp (t : Status) : (s.setStatus t).curOp = s.curOp := rfl
@[simp] theorem State.setStatus_mem (t : Status) : (s.setStatus t).mem = s.mem := rfl
@[simp] theorem State.setStatus_powerOns (t : Status) : (s.setStatus t).powerOns = s.powerOns := rfl
@[simp] theorem State.setStatus_draws (t : Status) : (s.setStatus t).draws = s.draws := rfl
@[simp] theorem State.setStatus_script (t : Status) : (s.setStatus t).script = s.script := rfl
@[simp] theorem State.setStatus_resp (t : Status) : (s.setStatus t).resp = s.resp := rfl

@[simp] theorem State.setIen_cfg (e : Ien) : (s.setIen e).cfg = s.cfg := rfl
@[simp] theorem State.setIen_status (e : Ien) : (s.setIen e).status = s.status := rfl
@[simp] theorem State.setIen_ien (e : Ien) : (s.setIen e).ien = e := rfl
@[simp] theorem State.setIen_errinfo (e : Ien) : (s.setIen e).errinfo = s.errinfo := rfl
@[simp] theorem State.setIen_pen (e : Ien) : (s.setIen e).pen = s.pen := rfl
@[simp] theorem State.setIen_pentot (e : Ien) : (s.setIen e).pentot = s.pentot := rfl
@[simp] theorem State.setIen_curOp (e : Ien) : (s.setIen e).curOp = s.curOp := rfl
@[simp] theorem State.setIen_mem (e : Ien) : (s.setIen e).mem = s.mem := rfl
@[simp] theorem State.setIen_powerOns (e : Ien) : (s.setIen e).powerOns = s.powerOns := rfl
@[simp] theorem State.setIen_draws (e : Ien) : (s.setIen e).draws = s.draws := rfl
@[simp] theorem State.setIen_script (e : Ien) : (s.setIen e).script = s.script := rfl
@[simp] theorem State.setIen_resp (e : Ien) : (s.setIen e).resp = s.resp := rfl

@[simp] theorem State.setErrinfo_cfg (e : ErrInfo) : (s.setErrinfo e).cfg = s.cfg := rfl
@[simp] theorem State.setErrinfo_status (e : ErrInfo) : (s.setErrinfo e).status = s.status := rfl
@[simp] theorem State.setErrinfo_ien (e : ErrInfo) : (s.setErrinfo e).ien = s.ien := rfl
@[simp] theorem State.setErrinfo_errinfo (e : ErrInfo) : (s.setErrinfo e).errinfo = e := rfl
@[simp] theorem State.setErrinfo_pen (e : ErrInfo) : (s.setErrinfo e).pen = s.pen := rfl
@[simp] theorem State.setErrinfo_pentot (e : ErrInfo) : (s.setErrinfo e).pentot = s.pentot := rfl
@[simp] theorem State.setErrinfo_curOp (e : ErrInfo) : (s.setErrinfo e).curOp = s.curOp := rfl
@[simp] theorem State.setErrinfo_mem (e : ErrInfo) : (s.setErrinfo e).mem = s.mem := rfl
@[simp] theorem State.setErrinfo_powerOns (e : ErrInfo) : (s.setErrinfo e).powerOns = s.powerOns := rfl
@[simp] theorem State.setErrinfo_draws (e : ErrInfo) : (s.setErrinfo e).draws = s.draws := rfl
@[simp] theorem State.setErrinfo_script (e : ErrInfo) : (s.setErrinfo e).script = s.script := rfl
@[simp] theorem State.setErrinfo_resp (e : ErrInfo) : (s.setErrinfo e).resp = s.resp := rfl

@[simp] theorem State.setScores_cfg (p : Vector Penalties 8) (t : Vector Word 8) : (s.setScores p t).cfg = s.cfg := rfl
@[simp] theorem State.setScores_status (p : Vector Penalties 8) (t : Vector Word 8) : (s.setScores p t).status = s.status := rfl
@[simp] theorem State.setScores_ien (p : Vector Penalties 8) (t : Vector Word 8) : (s.setScores p t).ien = s.ien := rfl
@[simp] theorem State.setScores_errinfo (p : Vector Penalties 8) (t : Vector Word 8) : (s.setScores p t).errinfo = s.errinfo := rfl
@[simp] theorem State.setScores_pen (p : Vector Penalties 8) (t : Vector Word 8) : (s.setScores p t).pen = p := rfl
@[simp] theorem State.setScores_pentot (p : Vector Penalties 8) (t : Vector Word 8) : (s.setScores p t).pentot = t := rfl
@[simp] theorem State.setScores_curOp (p : Vector Penalties 8) (t : Vector Word 8) : (s.setScores p t).curOp = s.curOp := rfl
@[simp] theorem State.setScores_mem (p : Vector Penalties 8) (t : Vector Word 8) : (s.setScores p t).mem = s.mem := rfl
@[simp] theorem State.setScores_powerOns (p : Vector Penalties 8) (t : Vector Word 8) : (s.setScores p t).powerOns = s.powerOns := rfl
@[simp] theorem State.setScores_draws (p : Vector Penalties 8) (t : Vector Word 8) : (s.setScores p t).draws = s.draws := rfl
@[simp] theorem State.setScores_script (p : Vector Penalties 8) (t : Vector Word 8) : (s.setScores p t).script = s.script := rfl
@[simp] theorem State.setScores_resp (p : Vector Penalties 8) (t : Vector Word 8) : (s.setScores p t).resp = s.resp := rfl

@[simp] theorem State.setCurOp_cfg (o : Byte) : (s.setCurOp o).cfg = s.cfg := rfl
@[simp] theorem State.setCurOp_status (o : Byte) : (s.setCurOp o).status = s.status := rfl
@[simp] theorem State.setCurOp_ien (o : Byte) : (s.setCurOp o).ien = s.ien := rfl
@[simp] theorem State.setCurOp_errinfo (o : Byte) : (s.setCurOp o).errinfo = s.errinfo := rfl
@[simp] theorem State.setCurOp_pen (o : Byte) : (s.setCurOp o).pen = s.pen := rfl
@[simp] theorem State.setCurOp_pentot (o : Byte) : (s.setCurOp o).pentot = s.pentot := rfl
@[simp] theorem State.setCurOp_curOp (o : Byte) : (s.setCurOp o).curOp = o := rfl
@[simp] theorem State.setCurOp_mem (o : Byte) : (s.setCurOp o).mem = s.mem := rfl
@[simp] theorem State.setCurOp_powerOns (o : Byte) : (s.setCurOp o).powerOns = s.powerOns := rfl
@[simp] theorem State.setCurOp_draws (o : Byte) : (s.setCurOp o).draws = s.draws := rfl
@[simp] theorem State.setCurOp_script (o : Byte) : (s.setCurOp o).script = s.script := rfl
@[simp] theorem State.setCurOp_resp (o : Byte) : (s.setCurOp o).resp = s.resp := rfl

@[simp] theorem State.setMem_cfg (m : Memory) : (s.setMem m).cfg = s.cfg := rfl
@[simp] theorem State.setMem_status (m : Memory) : (s.setMem m).status = s.status := rfl
@[simp] theorem State.setMem_ien (m : Memory) : (s.setMem m).ien = s.ien := rfl
@[simp] theorem State.setMem_errinfo (m : Memory) : (s.setMem m).errinfo = s.errinfo := rfl
@[simp] theorem State.setMem_pen (m : Memory) : (s.setMem m).pen = s.pen := rfl
@[simp] theorem State.setMem_pentot (m : Memory) : (s.setMem m).pentot = s.pentot := rfl
@[simp] theorem State.setMem_curOp (m : Memory) : (s.setMem m).curOp = s.curOp := rfl
@[simp] theorem State.setMem_mem (m : Memory) : (s.setMem m).mem = m := rfl
@[simp] theorem State.setMem_powerOns (m : Memory) : (s.setMem m).powerOns = s.powerOns := rfl
@[simp] theorem State.setMem_draws (m : Memory) : (s.setMem m).draws = s.draws := rfl
@[simp] theorem State.setMem_script (m : Memory) : (s.setMem m).script = s.script := rfl
@[simp] theorem State.setMem_resp (m : Memory) : (s.setMem m).resp = s.resp := rfl

@[simp] theorem State.setDraws_cfg (n : Nat) : (s.setDraws n).cfg = s.cfg := rfl
@[simp] theorem State.setDraws_status (n : Nat) : (s.setDraws n).status = s.status := rfl
@[simp] theorem State.setDraws_ien (n : Nat) : (s.setDraws n).ien = s.ien := rfl
@[simp] theorem State.setDraws_errinfo (n : Nat) : (s.setDraws n).errinfo = s.errinfo := rfl
@[simp] theorem State.setDraws_pen (n : Nat) : (s.setDraws n).pen = s.pen := rfl
@[simp] theorem State.setDraws_pentot (n : Nat) : (s.setDraws n).pentot = s.pentot := rfl
@[simp] theorem State.setDraws_curOp (n : Nat) : (s.setDraws n).curOp = s.curOp := rfl
@[simp] theorem State.setDraws_mem (n : Nat) : (s.setDraws n).mem = s.mem := rfl
@[simp] theorem State.setDraws_powerOns (n : Nat) : (s.setDraws n).powerOns = s.powerOns := rfl
@[simp] theorem State.setDraws_draws (n : Nat) : (s.setDraws n).draws = n := rfl
@[simp] theorem State.setDraws_script (n : Nat) : (s.setDraws n).script = s.script := rfl
@[simp] theorem State.setDraws_resp (n : Nat) : (s.setDraws n).resp = s.resp := rfl

@[simp] theorem State.setScript_cfg (l : List Event) : (s.setScript l).cfg = s.cfg := rfl
@[simp] theorem State.setScript_status (l : List Event) : (s.setScript l).status = s.status := rfl
@[simp] theorem State.setScript_ien (l : List Event) : (s.setScript l).ien = s.ien := rfl
@[simp] theorem State.setScript_errinfo (l : List Event) : (s.setScript l).errinfo = s.errinfo := rfl
@[simp] theorem State.setScript_pen (l : List Event) : (s.setScript l).pen = s.pen := rfl
@[simp] theorem State.setScript_pentot (l : List Event) : (s.setScript l).pentot = s.pentot := rfl
@[simp] theorem State.setScript_curOp (l : List Event) : (s.setScript l).curOp = s.curOp := rfl
@[simp] theorem State.setScript_mem (l : List Event) : (s.setScript l).mem = s.mem := rfl
@[simp] theorem State.setScript_powerOns (l : List Event) : (s.setScript l).powerOns = s.powerOns := rfl
@[simp] theorem State.setScript_draws (l : List Event) : (s.setScript l).draws = s.draws := rfl
@[simp] theorem State.setScript_script (l : List Event) : (s.setScript l).script = l := rfl
@[simp] theorem State.setScript_resp (l : List Event) : (s.setScript l).resp = s.resp := rfl

@[simp] theorem State.setResp_cfg (r : Response) : (s.setResp r).cfg = s.cfg := rfl
@[simp] theorem State.setResp_status (r : Response) : (s.setResp r).status = s.status := rfl
@[simp] theorem State.setResp_ien (r : Response) : (s.setResp r).ien = s.ien := rfl
@[simp] theorem State.setResp_errinfo (r : Response) : (s.setResp r).errinfo = s.errinfo := rfl
@[simp] theorem State.setResp_pen (r : Response) : (s.setResp r).pen = s.pen := rfl
@[simp] theorem State.setResp_pentot (r : Response) : (s.setResp r).pentot = s.pentot := rfl
@[simp] theorem State.setResp_curOp (r : Response) : (s.setResp r).curOp = s.curOp := rfl
@[simp] theorem State.setResp_mem (r : Response) : (s.setResp r).mem = s.mem := rfl
@[simp] theorem State.setResp_powerOns (r : Response) : (s.setResp r).powerOns = s.powerOns := rfl
@[simp] theorem State.setResp_draws (r : Response) : (s.setResp r).draws = s.draws := rfl
@[simp] theorem State.setResp_script (r : Response) : (s.setResp r).script = s.script := rfl
@[simp] theorem State.setResp_resp (r : Response) : (s.setResp r).resp = some r := rfl

end Sys2Proof.Machine
end

