-- ==== Sys2Proof/Laws/Memory.lean ====
section
/-! SUPPORT. What the storage operations do: a read after a block store, and that every store keeps the canonical form. -/

namespace Sys2Proof.Machine

/-! ### Reading what was stored -/

theorem Memory.lookup_append (m m' : Memory) (a : Nat) :
    Memory.lookup (m ++ m') a = (Memory.lookup m a).or (Memory.lookup m' a) := by
  induction m with
  | nil => simp [Memory.lookup]
  | cons c m ih =>
    obtain ⟨k, b⟩ := c
    simp only [List.cons_append, Memory.lookup]
    split <;> simp [ih]

theorem Memory.lookup_filter (m : Memory) (p : Nat → Bool) (a : Nat) :
    Memory.lookup (m.filter fun c => p c.1) a = if p a then Memory.lookup m a else none := by
  induction m with
  | nil => simp [Memory.lookup]
  | cons c m ih =>
    obtain ⟨k, b⟩ := c
    by_cases hk : k = a
    · subst hk
      by_cases hp : p k <;> simp [hp, Memory.lookup, ih]
    · by_cases hp : p k <;> simp [hp, Memory.lookup, ih, hk]

theorem Memory.lookup_number (base : Nat) (bs : List Byte) (a : Nat) :
    Memory.lookup (Memory.number base bs) a = if base ≤ a then bs[a - base]? else none := by
  induction bs generalizing base with
  | nil => simp [Memory.number, Memory.lookup]
  | cons b bs ih =>
    simp only [Memory.number, Memory.lookup, ih]
    by_cases h : base = a
    · subst h; simp
    · by_cases h' : base ≤ a
      · have : a - base = (a - (base + 1)) + 1 := by omega
        simp [h, h', show base + 1 ≤ a by omega, this]
      · simp [h, h', show ¬ base + 1 ≤ a by omega]

/-- A read after a block store: the byte stored inside the block, what was there before elsewhere. -/
theorem Memory.lookup_storeBlock (m : Memory) (base : Nat) (bs : List Byte) (a : Nat) :
    (m.storeBlock base bs).lookup a =
      if base ≤ a ∧ a < base + bs.length then bs[a - base]? else m.lookup a := by
  have h1 := Memory.lookup_filter m (fun k => decide (k < base)) a
  have h2 := Memory.lookup_filter m (fun k => decide (base + bs.length ≤ k)) a
  simp only [Memory.storeBlock, Memory.lookup_append, Memory.lookup_number, h1, h2]
  by_cases hlo : a < base
  · simp [hlo, show ¬ base ≤ a by omega, show ¬ base + bs.length ≤ a by omega]
  · by_cases hhi : a < base + bs.length
    · have hlt : a - base < bs.length := by omega
      simp [hlo, hhi, show base ≤ a by omega, hlt]
    · have : bs[a - base]? = none := by simp; omega
      simp [hlo, hhi, show base ≤ a by omega, show base + bs.length ≤ a by omega, this]

/-- A byte outside the stored block reads as before. -/
theorem Memory.lookup_storeBlock_outside (m : Memory) (base : Nat) (bs : List Byte) (a : Nat)
    (h : ¬ (base ≤ a ∧ a < base + bs.length)) : (m.storeBlock base bs).lookup a = m.lookup a := by
  rw [Memory.lookup_storeBlock, if_neg h]

/-- A slice holds what the list holds inside its range. -/
theorem Memory.lookup_slice (m : Memory) (base len a : Nat) (h : base ≤ a ∧ a < base + len) :
    (m.slice base len).lookup a = m.lookup a := by
  have := Memory.lookup_filter m (fun k => decide (base ≤ k) && decide (k < base + len)) a
  simp only [Memory.slice, this]
  simp [h]

@[simp] theorem State.storeBlock_status (s : State) (base : Nat) (bs : List Byte) :
    (s.storeBlock base bs).status = s.status := rfl

/-- A read of one byte after a block store. -/
theorem State.readRam_storeBlock (s : State) (base : Nat) (bs : List Byte) (a : Nat) :
    (s.storeBlock base bs).readRam a =
      if base ≤ a ∧ a < base + bs.length then bs.getD (a - base) 0 else s.readRam a := by
  simp only [State.readRam, State.storeBlock, State.setMem_mem, State.setMem_powerOns, Memory.lookup_storeBlock]
  by_cases h : base ≤ a ∧ a < base + bs.length
  · have hlt : a - base < bs.length := by omega
    rw [if_pos h, if_pos h]
    simp [List.getD, hlt]
  · simp [h]

/-- A block read is the bytes read one by one. -/
theorem State.readBlock_eq (s : State) (base len : Nat) :
    s.readBlock base len = (List.range len).map fun i => s.readRam (base + i) := by
  simp only [State.readBlock, State.readRam]
  apply List.map_congr_left
  intro i hi
  rw [Memory.lookup_slice _ _ _ _ (by simp at hi; omega)]

@[simp] theorem State.readBlock_length (s : State) (base len : Nat) : (s.readBlock base len).length = len := by
  simp [State.readBlock]

/-! ### The canonical form -/

theorem Memory.rising_le {lo lo' : Nat} {m : Memory} (h : Memory.rising lo m = true) (hle : lo' ≤ lo) :
    Memory.rising lo' m = true := by
  cases m with
  | nil => rfl
  | cons c m =>
    simp only [Memory.rising, Bool.and_eq_true, decide_eq_true_eq] at h ⊢
    exact ⟨by omega, h.2⟩

theorem Memory.rising_filter {lo : Nat} {m : Memory} (p : Host.Cell → Bool) (h : Memory.rising lo m = true) :
    Memory.rising lo (m.filter p) = true := by
  induction m generalizing lo with
  | nil => rfl
  | cons c m ih =>
    simp only [Memory.rising, Bool.and_eq_true, decide_eq_true_eq] at h
    by_cases hp : p c
    · simp only [List.filter_cons, hp, if_true, Memory.rising, Bool.and_eq_true, decide_eq_true_eq]
      exact ⟨h.1, ih h.2⟩
    · simp only [List.filter_cons, hp]
      exact ih (Memory.rising_le h.2 (by omega))

theorem Memory.rising_of_ge {lo lo' : Nat} {m : Memory} (h : Memory.rising lo m = true) (hge : ∀ c ∈ m, lo' ≤ c.1) :
    Memory.rising lo' m = true := by
  cases m with
  | nil => rfl
  | cons c m =>
    simp only [Memory.rising, Bool.and_eq_true, decide_eq_true_eq] at h ⊢
    exact ⟨hge c (by simp), h.2⟩

theorem Memory.rising_append {lo mid : Nat} {m m' : Memory} (h : Memory.rising lo m = true)
    (hlt : ∀ c ∈ m, c.1 < mid) (h' : Memory.rising mid m' = true) (hle : lo ≤ mid) :
    Memory.rising lo (m ++ m') = true := by
  induction m generalizing lo with
  | nil => exact Memory.rising_le h' hle
  | cons c m ih =>
    simp only [Memory.rising, Bool.and_eq_true, decide_eq_true_eq, List.cons_append] at h ⊢
    have hc : c.1 < mid := hlt c (by simp)
    exact ⟨h.1, ih h.2 (fun x hx => hlt x (by simp [hx])) (by omega)⟩

theorem Memory.rising_number (base : Nat) (bs : List Byte) : Memory.rising base (Memory.number base bs) = true := by
  induction bs generalizing base with
  | nil => rfl
  | cons b bs ih => simp [Memory.number, Memory.rising, ih]

theorem Memory.mem_number {base : Nat} {bs : List Byte} {c : Host.Cell} (h : c ∈ Memory.number base bs) :
    base ≤ c.1 ∧ c.1 < base + bs.length ∧ bs[c.1 - base]? = some c.2 := by
  induction bs generalizing base with
  | nil => simp [Memory.number] at h
  | cons b bs ih =>
    simp only [Memory.number, List.mem_cons] at h
    rcases h with rfl | h
    · simp
    · obtain ⟨h1, h2, h3⟩ := ih h
      have : c.1 - base = (c.1 - (base + 1)) + 1 := by omega
      refine ⟨by omega, by simp; omega, ?_⟩
      rw [this]
      simpa using h3

/-- A block store keeps the canonical form when every byte stored lies in the block's storage. -/
theorem Memory.wf_storeBlock {m : Memory} (h : m.wf = true) (base : Nat) (bs : List Byte)
    (hok : ∀ i (hi : i < bs.length), Memory.entryOk (base + i, bs[i]) = true) : (m.storeBlock base bs).wf = true := by
  simp only [Memory.wf, Bool.and_eq_true, List.all_eq_true] at h ⊢
  obtain ⟨hr, ha⟩ := h
  constructor
  · simp only [Memory.storeBlock, List.append_assoc]
    refine Memory.rising_append (mid := base) (Memory.rising_filter _ hr) ?_ ?_ (by omega)
    · intro c hc
      simpa using (List.mem_filter.mp hc).2
    · refine Memory.rising_append (mid := base + bs.length) (Memory.rising_number base bs) ?_ ?_ (by omega)
      · intro c hc
        exact (Memory.mem_number hc).2.1
      · refine Memory.rising_of_ge (Memory.rising_filter _ hr) ?_
        intro c hc
        simpa using (List.mem_filter.mp hc).2
  · intro c hc
    simp only [Memory.storeBlock, List.append_assoc, List.mem_append] at hc
    rcases hc with hc | hc | hc
    · exact ha c (List.mem_filter.mp hc).1
    · obtain ⟨h1, h2, h3⟩ := Memory.mem_number hc
      have hi : c.1 - base < bs.length := by omega
      have := hok (c.1 - base) hi
      rw [List.getElem?_eq_getElem hi, Option.some.injEq] at h3
      rwa [h3, show base + (c.1 - base) = c.1 by omega] at this
    · exact ha c (List.mem_filter.mp hc).1

/-- The reset memory has the canonical form. -/
theorem State.reset_mem_wf : State.reset.mem.wf = true := by decide

theorem Cell.toByte_lt (x : Cell) : x.toByte.toNat < 16 := by
  obtain ⟨a, b, c, d⟩ := x
  revert a b c d
  decide

/-- A cell read back from its byte is the cell. -/
@[simp] theorem Cell.ofByte_toByte (x : Cell) : Cell.ofByte x.toByte = x := by
  obtain ⟨a, b, c, d⟩ := x
  revert a b c d
  decide

/-- Storing rows of the matrix keeps the canonical form while the rows fit the 177 × 177 cells. -/
theorem Memory.wf_storeRows {m : Memory} (h : m.wf = true) (r : Nat) (g : Grid)
    (hrow : ∀ row ∈ g, row.length ≤ Config.sideMax) (hr : r + g.length ≤ Config.sideMax) :
    (m.storeRows r g).wf = true := by
  induction g generalizing m r with
  | nil => exact h
  | cons row rows ih =>
    simp only [Memory.storeRows]
    refine ih ?_ _ (fun x hx => hrow x (by simp [hx])) (by simp at hr; omega)
    refine Memory.wf_storeBlock h _ _ ?_
    intro i hi
    have hlen : row.length ≤ 177 := hrow row (by simp)
    have hi' : i < row.length := by simpa using hi
    have hr' : r < 177 := by simp [Config.sideMax] at hr; omega
    have hb : ((row.map Cell.toByte)[i]).toNat < 16 := by simpa using Cell.toByte_lt _
    have hsub : cellAddr r 0 + i - Config.matrixBase = 256 * r + i := by simp only [cellAddr]; omega
    have hle : Config.matrixBase ≤ cellAddr r 0 + i := by simp only [cellAddr]; omega
    have hdiv : (256 * r + i) / 256 < Config.sideMax := by simp only [Config.sideMax]; omega
    have hmod : (256 * r + i) % 256 < Config.sideMax := by simp only [Config.sideMax]; omega
    simp only [Memory.entryOk, isCellAddr, hsub, Bool.or_eq_true, Bool.and_eq_true, decide_eq_true_eq]
    exact .inr ⟨⟨⟨hle, hdiv⟩, hmod⟩, hb⟩

/-- A read after storing rows from row `r` on: the cell stored inside the rows, what was there before elsewhere. -/
theorem Memory.lookup_storeRows (m : Memory) (r : Nat) (g : Grid) (hrow : ∀ row ∈ g, row.length ≤ 256) (a : Nat) :
    (m.storeRows r g).lookup a =
      if cellAddr r 0 ≤ a ∧ (a - Config.matrixBase) % 256 < (g.getD ((a - Config.matrixBase) / 256 - r) []).length then
        some ((g.get ((a - Config.matrixBase) / 256 - r) ((a - Config.matrixBase) % 256)).toByte)
      else m.lookup a := by
  induction g generalizing m r with
  | nil => simp [Memory.storeRows]
  | cons row rows ih =>
    have hlen : row.length ≤ 256 := hrow row (by simp)
    simp only [Memory.storeRows]
    rw [ih _ _ (fun x hx => hrow x (by simp [hx])), Memory.lookup_storeBlock]
    simp only [cellAddr, List.length_map]
    by_cases h1 : Config.matrixBase + 256 * (r + 1) + 0 ≤ a
    · have hd : (a - Config.matrixBase) / 256 - r = ((a - Config.matrixBase) / 256 - (r + 1)) + 1 := by omega
      have h2 : Config.matrixBase + 256 * r + 0 ≤ a := by omega
      have h3 : ¬ a < Config.matrixBase + 256 * r + 0 + row.length := by omega
      simp only [h1, h2, h3, true_and, hd, List.getD_cons_succ, Grid.get, if_false]
    · rw [if_neg fun h => h1 h.1]
      by_cases h2 : Config.matrixBase + 256 * r + 0 ≤ a
      · have hd : (a - Config.matrixBase) / 256 - r = 0 := by omega
        have hm : a - (Config.matrixBase + 256 * r + 0) = (a - Config.matrixBase) % 256 := by omega
        simp only [h2, true_and, hd, List.getD_cons_zero, Grid.get, hm]
        by_cases h3 : (a - Config.matrixBase) % 256 < row.length
        · rw [if_pos (by omega), if_pos h3]
          simp [List.getD, h3]
        · rw [if_neg (by omega), if_neg h3]
      · have h3 : ¬ Config.matrixBase + 256 * r ≤ a := by omega
        simp [h3]

end Sys2Proof.Machine
end

