-- ==== Sys2Proof/Laws/Grid.lean ====
section
/-! SUPPORT. What the grid operations do, cell by cell, and how the grid of a symbol is loaded and stored. -/

namespace Sys2Proof.Machine

/-- `g` has n rows of n cells. -/
def Grid.Square (n : Nat) (g : Grid) : Prop := g.length = n ∧ ∀ row ∈ g, row.length = n

theorem Grid.square_tabulate (n : Nat) (f : Nat → Nat → Cell) : (Grid.tabulate n f).Square n := by
  constructor
  · simp [Grid.tabulate]
  · intro row h
    simp only [Grid.tabulate, List.mem_map] at h
    obtain ⟨r, -, rfl⟩ := h
    simp

theorem Grid.get_tabulate {n r c : Nat} (f : Nat → Nat → Cell) (hr : r < n) (hc : c < n) :
    (Grid.tabulate n f).get r c = f r c := by
  simp [Grid.get, Grid.tabulate, List.getD, hr, hc]

theorem Grid.square_update {n : Nat} {g : Grid} (h : g.Square n) (r c : Nat) (f : Cell → Cell) :
    (g.update r c f).Square n := by
  refine ⟨by simpa [Grid.update] using h.1, ?_⟩
  intro row hrow
  obtain ⟨k, hk, rfl⟩ := List.mem_iff_getElem.mp hrow
  simp only [Grid.update, List.length_modify] at hk
  simp only [Grid.update, List.getElem_modify]
  split
  · simpa using h.2 _ (List.getElem_mem hk)
  · exact h.2 _ (List.getElem_mem hk)

/-- Changing one cell changes that cell and no other. -/
theorem Grid.get_update {n : Nat} {g : Grid} (h : g.Square n) {r c : Nat} (hr : r < n) (hc : c < n) (f : Cell → Cell)
    (r' c' : Nat) : (g.update r c f).get r' c' = if r' = r ∧ c' = c then f (g.get r c) else g.get r' c' := by
  have hlen : r < g.length := by rw [h.1]; exact hr
  have hrow : c < (g[r]).length := by rw [h.2 _ (List.getElem_mem hlen)]; exact hc
  simp only [Grid.update, Grid.get, List.getD, List.getElem?_modify]
  by_cases h1 : r = r'
  · subst h1
    by_cases h2 : c = c'
    · subst h2
      simp [hlen, hrow]
    · simp [hlen, h2, Ne.symm h2]
  · simp [h1, Ne.symm h1]

theorem Grid.square_foldl {α : Type} {n : Nat} (f : Grid → α → Grid)
    (hf : ∀ g a, Grid.Square n g → Grid.Square n (f g a)) (l : List α) {g : Grid} (h : g.Square n) :
    Grid.Square n (l.foldl f g) := by
  induction l generalizing g with
  | nil => exact h
  | cons a l ih => exact ih (hf g a h)

theorem square_drawOne {n : Nat} (g : Grid) (d : Draw) (h : g.Square n) : (drawOne n g d).Square n := by
  unfold drawOne
  split
  · exact Grid.square_update h _ _ _
  · exact h

theorem square_funcGrid (v : Nat) : (funcGrid v).Square (sideOf v) :=
  Grid.square_foldl _ (fun g d h => square_drawOne g d h) _ (Grid.square_tabulate _ _)

theorem square_placeBits {n : Nat} {g : Grid} (h : g.Square n) (order : List (Nat × Nat)) (bits : List Bool) :
    (placeBits g order bits).Square n :=
  Grid.square_foldl _ (fun _ _ h => Grid.square_update h _ _ _) _ h

theorem square_writeInfo {n w : Nat} {g : Grid} (h : g.Square n) (word : BitVec w) (cells : List (Nat × Nat × Nat)) :
    (writeInfo word cells g).Square n :=
  Grid.square_foldl _ (fun _ _ h => Grid.square_update h _ _ _) _ h

theorem square_maskGrid {n : Nat} {g : Grid} (h : g.Square n) (k : Nat) : (maskGrid k g).Square n := by
  refine ⟨by simpa [maskGrid] using h.1, ?_⟩
  intro row hrow
  obtain ⟨i, hi, rfl⟩ := List.mem_iff_getElem.mp hrow
  simp only [maskGrid, List.length_mapIdx] at hi
  simp only [maskGrid, List.getElem_mapIdx, List.length_mapIdx]
  exact h.2 _ (List.getElem_mem hi)

theorem get_maskGrid {n : Nat} {g : Grid} (h : g.Square n) (k : Nat) {r c : Nat} (hr : r < n) (hc : c < n) :
    (maskGrid k g).get r c = maskCell k r c (g.get r c) := by
  have hlen : r < g.length := by rw [h.1]; exact hr
  have hrow : c < (g[r]).length := by rw [h.2 _ (List.getElem_mem hlen)]; exact hc
  simp [maskGrid, Grid.get, List.getD, hlen, hrow]

theorem square_finishGrid {v : Nat} {g : Grid} (h : g.Square (sideOf v)) (ecl : BitVec 2) (k : Nat) :
    (finishGrid v ecl k g).Square (sideOf v) :=
  square_writeInfo (square_writeInfo (square_maskGrid h k) _ _) _ _

/-! ### Loading and storing the symbol -/

theorem State.square_loadGrid (s : State) (n : Nat) : (s.loadGrid n).Square n := by
  constructor
  · simp [State.loadGrid]
  · intro row h
    simp only [State.loadGrid, List.mem_map] at h
    obtain ⟨r, -, rfl⟩ := h
    simp

/-- The loaded grid holds the stored cells. -/
theorem State.get_loadGrid (s : State) {n r c : Nat} (hr : r < n) (hc : c < n) :
    (s.loadGrid n).get r c = s.readCell r c := by
  simp [State.loadGrid, Grid.get, List.getD, hr, hc, State.readBlock_eq, State.readCell, cellAddr, Nat.add_assoc]

theorem square_freeGrid (draw n : Nat) : (freeGrid draw n).Square n := Grid.square_tabulate _ _

/-- A read of one byte after storing the symbol: the cell byte inside it, what was there before elsewhere. -/
theorem State.readRam_storeGrid (s : State) {n : Nat} {g : Grid} (h : g.Square n) (hn : n ≤ 256) (a : Nat) :
    (isSymbolAddr n a → (s.storeGrid g).readRam a =
      (g.get ((a - Config.matrixBase) / 256) ((a - Config.matrixBase) % 256)).toByte) ∧
    (¬ isSymbolAddr n a → (s.storeGrid g).readRam a = s.readRam a) := by
  have hl := Memory.lookup_storeRows s.mem 0 g (fun row hrow => by rw [h.2 row hrow]; exact hn) a
  have hrow : ∀ k, k < n → (g.getD k []).length = n := by
    intro k hk
    have hk' : k < g.length := by rw [h.1]; exact hk
    simp only [List.getD, List.getElem?_eq_getElem hk', Option.getD_some]
    exact h.2 _ (List.getElem_mem hk')
  have hrow' : ∀ k, ¬ k < n → (g.getD k []).length = 0 := by
    intro k hk
    simp [List.getD, List.getElem?_eq_none (l := g) (i := k) (by rw [h.1]; omega)]
  have hread : (s.storeGrid g).readRam a =
      ((s.mem.storeRows 0 g).lookup a).getD (Config.powerOnRam s.powerOns a) := rfl
  have h0 : cellAddr 0 0 = Config.matrixBase := rfl
  rw [Nat.sub_zero] at hl
  constructor
  · rintro ⟨h1, h2, h3⟩
    rw [if_pos ⟨by rw [h0]; exact h1, by rw [hrow _ h2]; exact h3⟩] at hl
    rw [hread, hl]
    rfl
  · intro hno
    rw [if_neg] at hl
    · rw [hread, hl]
      rfl
    · rintro ⟨h1, h2⟩
      by_cases h3 : (a - Config.matrixBase) / 256 < n
      · have h1' : Config.matrixBase ≤ a := by rw [h0] at h1; exact h1
        rw [hrow _ h3] at h2
        exact hno ⟨h1', h3, h2⟩
      · rw [hrow' _ h3] at h2
        omega

/-- A cell of the symbol after storing it. -/
theorem State.readCell_storeGrid (s : State) {n : Nat} {g : Grid} (h : g.Square n) (hn : n ≤ 256) {r c : Nat}
    (hr : r < n) (hc : c < n) : (s.storeGrid g).readCell r c = g.get r c := by
  have hsub : cellAddr r c - Config.matrixBase = 256 * r + c := by simp only [cellAddr]; omega
  have hdiv : (256 * r + c) / 256 = r := by omega
  have hmod : (256 * r + c) % 256 = c := by omega
  have hsym : isSymbolAddr n (cellAddr r c) := by
    refine ⟨by simp only [cellAddr]; omega, ?_, ?_⟩
    · rw [hsub, hdiv]; exact hr
    · rw [hsub, hmod]; exact hc
  rw [State.readCell, (State.readRam_storeGrid s h hn _).1 hsym, Cell.ofByte_toByte, hsub, hdiv, hmod]

/-- Storing the symbol keeps the canonical form. -/
theorem State.wf_storeGrid {s : State} (hwf : s.mem.wf = true) {n : Nat} {g : Grid} (h : g.Square n)
    (hn : n ≤ Config.sideMax) : (s.storeGrid g).mem.wf = true :=
  Memory.wf_storeRows hwf 0 g (fun row hrow => by rw [h.2 row hrow]; exact hn) (by rw [h.1]; omega)

end Sys2Proof.Machine
end

