-- ==== Sys2Proof/Laws/Ops.lean ====
section
/-! SUPPORT. What each shared operation can do, said once: storage of the buffers, unspecified contents, command errors,
issue, completion, the bodies' frames, SOFT_RESET. -/

namespace Sys2Proof.Machine

/-! ### The three buffers -/

/-- Storing bytes inside DBUF, ECBUF or CWBUF keeps the canonical form. -/
theorem State.wf_storeBuffer {s : State} (h : s.mem.wf = true) (base : Nat) (bs : List Byte)
    (hlo : Config.dbufBase ≤ base) (hhi : base + bs.length ≤ Config.cwbufBase + Config.bufSize) :
    (s.storeBlock base bs).mem.wf = true := by
  refine Memory.wf_storeBlock h base bs ?_
  intro i hi
  have h1 : Config.dbufBase ≤ base + i := by omega
  have h2 : base + i < Config.cwbufBase + Config.bufSize := by omega
  simp [Memory.entryOk, isBufferAddr, h1, h2]

@[simp] theorem freeBytes_length (draw base len : Nat) : (freeBytes draw base len).length = len := by
  simp [freeBytes]

/-- Unspecified ECBUF contents: only ECBUF[0 .. len−1] may read otherwise. -/
theorem readRam_scrambleEc (draw len : Nat) (s : State) (a : Nat)
    (h : ¬ (Config.ecbufBase ≤ a ∧ a < Config.ecbufBase + len)) : (scrambleEc draw len s).readRam a = s.readRam a := by
  rw [scrambleEc, State.readRam_storeBlock, freeBytes_length, if_neg h]

/-- Unspecified CWBUF contents: only CWBUF[0 .. len−1] may read otherwise. -/
theorem readRam_scrambleCw (draw len : Nat) (s : State) (a : Nat)
    (h : ¬ (Config.cwbufBase ≤ a ∧ a < Config.cwbufBase + len)) : (scrambleCw draw len s).readRam a = s.readRam a := by
  rw [scrambleCw, State.readRam_storeBlock, freeBytes_length, if_neg h]

/-- Unspecified MATRIX contents: only the cells of the symbol may read otherwise. -/
theorem readRam_scrambleMatrix (draw : Nat) {n : Nat} (hn : n ≤ 256) (s : State) (a : Nat) (h : ¬ isSymbolAddr n a) :
    (scrambleMatrix draw n s).readRam a = s.readRam a :=
  (State.readRam_storeGrid s (square_freeGrid draw n) hn a).2 h

theorem wf_scrambleEc (draw len : Nat) {s : State} (h : s.mem.wf = true) (hlen : len ≤ Config.bufSize) :
    (scrambleEc draw len s).mem.wf = true := by
  refine State.wf_storeBuffer h _ _ (by decide) ?_
  simp only [freeBytes_length, Config.ecbufBase, Config.cwbufBase, Config.bufSize] at hlen ⊢
  omega

theorem wf_scrambleCw (draw len : Nat) {s : State} (h : s.mem.wf = true) (hlen : len ≤ Config.bufSize) :
    (scrambleCw draw len s).mem.wf = true := by
  refine State.wf_storeBuffer h _ _ (by decide) ?_
  simp only [freeBytes_length, Config.cwbufBase, Config.bufSize] at hlen ⊢
  omega

theorem wf_scrambleMatrix (draw : Nat) {n : Nat} {s : State} (h : s.mem.wf = true) (hn : n ≤ Config.sideMax) :
    (scrambleMatrix draw n s).mem.wf = true :=
  State.wf_storeGrid h (square_freeGrid draw n) hn

/-! ### Taking a command -/

/-- Taking a legal word does one of three things (R69, R126): CFG_INVALID, SEQUENCE, or acceptance. -/
theorem take_cases (i : Instr) (s : State) :
    (needsCfg i = true ∧ s.cfg.valid = false ∧ take i s = raiseTaken .cfgInvalid (opcode i) (clearDone s)) ∨
    ((needsCfg i = true → s.cfg.valid = true) ∧ phaseAllows i s.status.phase = false ∧
      take i s = raiseTaken .sequence (opcode i) (clearDone s)) ∨
    ((needsCfg i = true → s.cfg.valid = true) ∧ phaseAllows i s.status.phase = true ∧
      take i s = accept i (clearDone s)) := by
  have hc : (clearDone s).cfg.valid = s.cfg.valid := rfl
  have hp : (clearDone s).status.phase = s.status.phase := rfl
  cases h1 : needsCfg i <;> cases h2 : s.cfg.valid <;> cases h3 : phaseAllows i s.status.phase <;>
    simp [take, hc, hp, h1, h2, h3]

/-- The meaning of a command other than SOFT_RESET is its completion step or its issue (log 2). -/
theorem command_cases (i : Instr) (body : State → BodyResult) (s : State) :
    (s.status.busy = true ∧ s.curOp = opcode i ∧ command i body s = complete i body s) ∨
    (¬ (s.status.busy = true ∧ s.curOp = opcode i) ∧ command i body s = issue i s) := by
  unfold command
  by_cases h : s.status.busy = true ∧ s.curOp = opcode i
  · left
    exact ⟨h.1, h.2, by simp [h.1, h.2]⟩
  · right
    refine ⟨h, ?_⟩
    rw [if_neg]
    simpa using h

/-- Issue refuses while BUSY or ERR and else takes the word (R69). -/
theorem issue_cases (i : Instr) (s : State) :
    ((s.status.busy = true ∨ s.status.err = true) ∧ issue i s = respondSlverr s) ∨
    (s.status.busy = false ∧ s.status.err = false ∧ issue i s = respondOk (take i s)) := by
  unfold issue
  cases s.status.busy <;> cases s.status.err <;> simp

/-- A completion step ends without error or with INTERNAL (R71). -/
theorem complete_cases (i : Instr) (body : State → BodyResult) (s : State) :
    (∃ t, body s = .done t ∧ complete i body s = finish i t) ∨
    (∃ opc t, body s = .internal opc t ∧ complete i body s = raiseInternal opc t) := by
  unfold complete
  cases h : body s with
  | done t => exact .inl ⟨t, rfl, rfl⟩
  | internal opc t => exact .inr ⟨opc, t, rfl, rfl⟩

/-- Every command answers a next state: no meaning faults or refuses. -/
theorem exec_next (i : Instr) (s : State) : ∃ t, exec i s = .next t := by
  cases i <;> exact ⟨_, rfl⟩

/-! ### What the bodies can do -/

/-- RS_ENCODE's body stores ECBUF, or fails its check with ECBUF unspecified. -/
theorem bodyRsEncode_cases (s : State) :
    (s.row.lengths.sum + s.row.n * s.row.e = s.total ∧
      bodyRsEncode s = .done (s.storeBlock Config.ecbufBase (ecOfBlocks s.row s.dataCodewords))) ∨
    (s.row.lengths.sum + s.row.n * s.row.e ≠ s.total ∧
      bodyRsEncode s = .internal (opcode .rsEncode) (scrambleEc s.draws (s.row.n * s.row.e) (s.setDraws (s.draws + 1)))) := by
  by_cases h : s.row.lengths.sum + s.row.n * s.row.e = s.total
  · exact .inl ⟨h, if_pos h⟩
  · exact .inr ⟨h, if_neg h⟩

/-- INTERLEAVE's body stores CWBUF, or fails its check with CWBUF unspecified. -/
theorem bodyInterleave_cases (s : State) :
    ((interleaveBlocks s.row s.dataCodewords s.ecCodewords).length = s.total ∧
      bodyInterleave s =
        .done (s.storeBlock Config.cwbufBase (interleaveBlocks s.row s.dataCodewords s.ecCodewords))) ∨
    ((interleaveBlocks s.row s.dataCodewords s.ecCodewords).length ≠ s.total ∧
      bodyInterleave s = .internal (opcode .interleave) (scrambleCw s.draws s.total (s.setDraws (s.draws + 1)))) := by
  by_cases h : (interleaveBlocks s.row s.dataCodewords s.ecCodewords).length = s.total
  · exact .inl ⟨h, if_pos h⟩
  · exact .inr ⟨h, if_neg h⟩

/-- The symbol PLACE would store (R104). -/
def placedGrid (s : State) : Grid :=
  placeBits (s.loadGrid s.side) (zigzag s.side (s.loadGrid s.side)) (placedBits s.stream (remOf s.version))

/-- PLACE's body stores the placed symbol, or fails one of its checks with the symbol unspecified. -/
theorem bodyPlace_cases (s : State) :
    ((zigzag s.side (s.loadGrid s.side)).length = 8 * s.total + remOf s.version ∧ (placedGrid s).allSet = true ∧
      bodyPlace s = .done (s.storeGrid (placedGrid s))) ∨
    (¬ ((zigzag s.side (s.loadGrid s.side)).length = 8 * s.total + remOf s.version ∧ (placedGrid s).allSet = true) ∧
      bodyPlace s = .internal (opcode .place) (scrambleMatrix s.draws s.side (s.setDraws (s.draws + 1)))) := by
  by_cases h : (zigzag s.side (s.loadGrid s.side)).length = 8 * s.total + remOf s.version ∧ (placedGrid s).allSet = true
  · exact .inl ⟨h.1, h.2, if_pos h⟩
  · exact .inr ⟨h, if_neg h⟩

/-! ### SOFT_RESET -/

/-- What an abort leaves: only the storage may change. -/
theorem abortOutputs_mem_only (s : State) : abortOutputs s = s.setMem (abortOutputs s).mem := by
  unfold abortOutputs
  cases ofOpcode s.curOp with
  | none => rfl
  | some i => cases i <;> rfl

/-- SOFT_RESET clears the sequencer and keeps CFG, IEN and the model's own script and answers (R74). -/
theorem softReset_registers (s : State) :
    (softReset s).status = State.reset.status ∧ (softReset s).errinfo = ErrInfo.zero ∧ (softReset s).curOp = 0x00 ∧
    (softReset s).pen = State.reset.pen ∧ (softReset s).pentot = State.reset.pentot ∧ (softReset s).cfg = s.cfg ∧
    (softReset s).ien = s.ien ∧ (softReset s).powerOns = s.powerOns ∧ (softReset s).script = s.script ∧
    (softReset s).resp = s.resp := by
  unfold softReset
  rw [abortOutputs_mem_only]
  cases s.status.busy <;> simp [clearSequencer]

/-- With nothing running SOFT_RESET keeps the storage (R74). -/
theorem softReset_idle (s : State) (h : s.status.busy = false) : (softReset s).mem = s.mem ∧ (softReset s).draws = s.draws := by
  simp [softReset, h, clearSequencer]

end Sys2Proof.Machine
end

