-- ==== Sys2Proof/Laws/PerInstr.lean ====
section
/-! SUPPORT. The family EncodedWord: the command word of each command has RSVD = 0, its opcode is one of the nine, and it
decodes to the command (30_encoding.md R62, R64, R66). -/

namespace Sys2Proof.Laws.EncodedWord

/-- What the family says of one command. -/
def Statement (i : Instr) : Prop :=
  (splitWord (encode i)).wellFormed = true ∧ (splitWord (encode i)).opc = opcode i ∧ decode (encode i) = .ok i ∧
    i.wellFormed = true

theorem nop : Statement .nop := by unfold Statement; decide
theorem softReset : Statement .softReset := by unfold Statement; decide
theorem rsEncode : Statement .rsEncode := by unfold Statement; decide
theorem interleave : Statement .interleave := by unfold Statement; decide
theorem buildFunc : Statement .buildFunc := by unfold Statement; decide
theorem place : Statement .place := by unfold Statement; decide
theorem score : Statement .score := by unfold Statement; decide
theorem finalize : Statement .finalize := by unfold Statement; decide
theorem run : Statement .run := by unfold Statement; decide

end Sys2Proof.Laws.EncodedWord
end

