-- ==== Sys2Proof/Laws/Step.lean ====
section
/-! SUPPORT. What one step can do: the event performed, and what each kind of event leads to. -/

namespace Sys2Proof.Machine

/-- A step performs the next event. -/
theorem step_cons {s : State} {e : Event} {rest : List Event} (h : s.script = e :: rest) :
    step s = perform e (s.setScript rest) := by
  simp [step, h]

/-- With the script used up a step is the engine's opportunity. -/
theorem step_nil {s : State} (h : s.script = []) : step s = engineStep s := by
  simp [step, h]

/-- The engine's opportunity: nothing while BUSY = 0; else the command in CUR_OP is completed, or the machine stops. -/
theorem engineStep_cases (s : State) :
    (s.status.busy = false ∧ engineStep s = .next s) ∨
    (s.status.busy = true ∧ s.running = none ∧ engineStep s = .fault .strayCurOp) ∨
    (∃ i, s.status.busy = true ∧ s.running = some i ∧ engineStep s = exec i s) := by
  unfold engineStep
  cases hb : s.status.busy with
  | false => exact .inl ⟨rfl, rfl⟩
  | true =>
    cases hr : s.running with
    | none => exact .inr (.inl ⟨rfl, rfl, rfl⟩)
    | some i => exact .inr (.inr ⟨i, rfl, rfl, rfl⟩)

/-- A read answers and changes nothing else (R53). -/
theorem hostRead_cases (a n : Nat) (s : State) :
    (∃ v, hostReadData a n s = some v ∧ hostRead a n s = respondData v s) ∨
    (hostReadData a n s = none ∧ hostRead a n s = respondNoData s) := by
  unfold hostRead
  cases h : hostReadData a n s with
  | none => exact .inr ⟨rfl, rfl⟩
  | some v => exact .inl ⟨v, rfl, rfl⟩

/-- A submitted word: refused, illegal, or executed (R69). -/
theorem submit_cases (w : Word) (s : State) :
    ((s.status.busy = true ∨ s.status.err = true) ∧ w = encode .softReset ∧ submit w s = exec .softReset s) ∨
    ((s.status.busy = true ∨ s.status.err = true) ∧ w ≠ encode .softReset ∧ submit w s = .next (respondSlverr s)) ∨
    (∃ i, s.status.busy = false ∧ s.status.err = false ∧ decode w = .ok i ∧ submit w s = exec i s) ∨
    (∃ e, s.status.busy = false ∧ s.status.err = false ∧ decode w = .error e ∧
      submit w s = .next (issueIllegal (splitWord w).opc s)) := by
  unfold submit
  cases hb : s.status.busy <;> cases he : s.status.err
  · right; right
    cases hd : decode w with
    | ok i => exact .inl ⟨i, rfl, rfl, rfl, rfl⟩
    | error e => exact .inr ⟨e, rfl, rfl, rfl, rfl⟩
  all_goals
    by_cases hw : w = encode .softReset
    · exact .inl ⟨by simp, hw, by simp [hw]⟩
    · exact .inr (.inl ⟨by simp, hw, by simp [hw]⟩)

/-- A write of `n` bytes: to a register, to DBUF, or refused. -/
theorem hostWrite_cases (a n : Nat) (v : Word) (s : State) :
    (target a n = some .regs ∧ hostWrite a n v s = writeRegister a v s) ∨
    (target a n = some .dbuf ∧ hostWrite a n v s = .next (writeDbuf a n v s)) ∨
    (target a n ≠ some .regs ∧ target a n ≠ some .dbuf ∧ hostWrite a n v s = .next (respondSlverr s)) := by
  unfold hostWrite
  cases h : target a n with
  | none => simp
  | some r => cases r <;> simp

end Sys2Proof.Machine
end

