-- ==== Sys2Proof/Tests/Slice0.lean ====
section
/-! SUPPORT. Small tests against the vectors of spec/95_test_vectors.md and words written out from 30_encoding.md, and a
witness for every statement with hypotheses. -/

namespace Sys2Proof.Tests

open Sys2Proof.Machine Sys2Proof.Claims

/-! ### Helpers -/

/-- After reset, with CFG and PHASE set and nothing running. -/
def ready (v ecl : Nat) (p : Phase) : State :=
  { State.reset with
    cfg := ⟨BitVec.ofNat 6 v, BitVec.ofNat 2 ecl⟩
    status := { State.reset.status with phase := p } }

/-- The same with the command `i` accepted and not yet completed. -/
def running (i : Instr) (v ecl : Nat) (p : Phase) : State := accept i (ready v ecl p)

/-- After reset with a command error recorded: SEQUENCE of PLACE at IDLE. -/
def failed : State :=
  { State.reset with
    status := { State.reset.status with err := true, errcode := .sequence }
    errinfo := ⟨0x21, .idle, false⟩ }

/-- The given events are still to come. -/
def facing (l : List Event) (s : State) : State := s.setScript l

/-- What a view of the next state shows; `none` where the machine stops. -/
def seen {α : Type} (f : State → α) : Host.Outcome State Fault Refusal → Option α
  | .next t => some (f t)
  | .fault _ => none
  | .refused _ => none

/-- Read a next state out of what a view of it shows. -/
theorem next_of_seen {f : State → Bool} {o : Host.Outcome State Fault Refusal} (h : seen f o = some true) :
    ∃ t, o = .next t ∧ f t = true := by
  cases o with
  | next t => exact ⟨t, rfl, by simpa [seen] using h⟩
  | fault r => simp [seen] at h
  | refused r => simp [seen] at h

/-- Read a next state answered OK out of what the answer shows. -/
theorem ok_of_seen {o : Host.Outcome State Fault Refusal} (h : seen (fun t => decide (t.resp = some ⟨false, none⟩)) o = some true) :
    ∃ t, o = .next t ∧ t.resp = some ⟨false, none⟩ := by
  obtain ⟨t, ht, hr⟩ := next_of_seen h
  exact ⟨t, ht, of_decide_eq_true hr⟩

/-- DBUF of program P1 (95 section 3). -/
def helloData : List Byte := [32, 91, 11, 120, 209, 114, 220, 77, 67, 64, 236, 17, 236, 17, 236, 17]

/-- ECBUF of program P1 (95 section 3). -/
def helloEc : List Byte := [196, 35, 39, 119, 235, 215, 231, 226, 93, 23]

/-- 0, 1, …, n − 1 as bytes. -/
def counting (n : Nat) : List Byte := (List.range n).map (BitVec.ofNat 8)

/-- The placed, unmasked symbol of program P1. -/
def helloPlaced : Grid := placeBits (funcGrid 1) (zigzag 21 (funcGrid 1)) (placedBits (helloData ++ helloEc) 0)

/-- The cell bytes of one row of the symbol as stored. -/
def rowBytes (r c len : Nat) (s : State) : List Byte := (s.readBlock (cellAddr r c) len).map fun b => (Cell.ofByte b).toByte

/-! ### Well-formedness (30_encoding.md R62): one refused term for each check -/

theorem test_reserved_bits_refused : (RawCommand.mk 1 0x30).reservedZero = false ∧ (RawCommand.mk 1 0x30).wellFormed = false := by
  decide
theorem test_undefined_opcode_refused : (RawCommand.mk 0 0x02).opcodeLegal = false ∧ (RawCommand.mk 0 0x02).wellFormed = false := by
  decide
theorem test_legal_raw_command : (RawCommand.mk 0 0x30).wellFormed = true := by decide
theorem test_every_command_well_formed : ∀ i ∈ nineCommands, i.wellFormed = true := by decide

/-! ### Decoding: each command's word written out from R62 and R64, RSVD in bits 31:8, OPC in bits 7:0 -/

theorem test_decode_nop : decode 0b000000000000000000000000_00000000 = .ok .nop := by decide
theorem test_decode_soft_reset : decode 0b000000000000000000000000_00000001 = .ok .softReset := by decide
theorem test_decode_rs_encode : decode 0b000000000000000000000000_00010000 = .ok .rsEncode := by decide
theorem test_decode_interleave : decode 0b000000000000000000000000_00010001 = .ok .interleave := by decide
theorem test_decode_build_func : decode 0b000000000000000000000000_00100000 = .ok .buildFunc := by decide
theorem test_decode_place : decode 0b000000000000000000000000_00100001 = .ok .place := by decide
theorem test_decode_score : decode 0b000000000000000000000000_00100010 = .ok .score := by decide
theorem test_decode_finalize : decode 0b000000000000000000000000_00100011 = .ok .finalize := by decide
theorem test_decode_run : decode 0b000000000000000000000000_00110000 = .ok .run := by decide
theorem test_decode_run_with_reserved_bit : decode 0b100000000000000000000000_00110000 = .error .reservedNonzero := by decide
theorem test_decode_undefined : decode 0x000000FF = .error .undefinedOpcode := by decide
theorem test_table_word : decodeTableWord 32 0x22 = some .score ∧ decodeTableWord 32 0x101 = none := by decide

/-! ### The sequencer (95 section 2.11) -/

theorem test_nop_runs_first_after_reset :
    seen (fun t => (t.statusWord, t.curOp)) (step (State.reset.withFetchWord 32 0x00)) = some (0x00000001, 0x00) := by decide
theorem test_row1_rs_encode_accepted : seen State.statusWord (exec .rsEncode (ready 1 1 .idle)) = some 0x00000001 := by decide
theorem test_row2_interleave_sequence :
    seen (fun t => (t.statusWord, errinfoWord t.errinfo)) (exec .interleave (ready 1 1 .idle)) =
      some (0x00000034, 0x00000011) := by decide
theorem test_row5_build_func_sequence :
    seen (fun t => (t.statusWord, errinfoWord t.errinfo)) (exec .buildFunc (ready 1 1 .ecDone)) =
      some (0x00001034, 0x00000120) := by decide
theorem test_row8_place_sequence :
    seen (fun t => (t.statusWord, errinfoWord t.errinfo)) (exec .place (ready 1 1 .placed)) =
      some (0x00004034, 0x00000421) := by decide
theorem test_row10_score_sequence :
    seen (fun t => (t.statusWord, errinfoWord t.errinfo)) (exec .score (ready 1 1 .funcDone)) =
      some (0x00003034, 0x00000322) := by decide
theorem test_row13_finalize_sequence :
    seen (fun t => (t.statusWord, errinfoWord t.errinfo)) (exec .finalize (ready 1 1 .final)) =
      some (0x00006034, 0x00000623) := by decide
theorem test_row14_run_accepted : seen State.statusWord (exec .run (ready 1 1 .final)) = some 0x00006001 := by decide
theorem test_row18_cfg_before_sequence :
    seen (fun t => (t.statusWord, errinfoWord t.errinfo)) (step (facing [submission 0x11] State.reset)) =
      some (0x00000024, 0x00000011) := by decide
theorem test_row19_illegal_before_cfg :
    seen (fun t => (t.statusWord, errinfoWord t.errinfo)) (step (facing [submission 0x110] (ready 41 1 .idle))) =
      some (0x00000014, 0x00000010) := by decide
theorem test_row26_refused_while_busy :
    seen (fun t => (t.statusWord, t.resp)) (step (facing [submission 0x101] (running .rsEncode 1 1 .idle))) =
      some (0x00000001, some ⟨true, none⟩) := by decide
theorem test_row29_soft_reset_leaves_error :
    seen (fun t => (t.statusWord, t.resp)) (step (facing [submission 0x01] failed)) = some (0, some ⟨false, none⟩) := by decide

/-! ### Completion of each command -/

/-- R73's example. -/
theorem test_nop_completes : seen State.statusWord (step (running .nop 0 0 .idle)) = some 0x00000002 := by decide

/-- R74's example. -/
theorem test_soft_reset : seen (fun t => (t.statusWord, errinfoWord t.errinfo)) (exec .softReset failed) = some (0, 0) := by
  decide

/-- 95 vector RS7, program P1. -/
theorem test_rs_encode_hello :
    seen (fun t => (t.statusWord, t.readBlock 0x02000 10))
      (exec .rsEncode ((running .rsEncode 1 1 .idle).storeBlock 0x01000 helloData)) =
      some (0x00001002, [196, 35, 39, 119, 235, 215, 231, 226, 93, 23]) := by decide +kernel

/-- 95 vector IL1 (5-Q): block 3, a long one. -/
theorem test_rs_encode_long_block :
    seen (fun t => t.readBlock (0x02000 + 54) 18) (exec .rsEncode ((running .rsEncode 5 2 .idle).storeBlock 0x01000 (counting 62))) =
      some [68, 224, 231, 112, 173, 95, 235, 68, 131, 242, 131, 87, 110, 110, 65, 29, 132, 19] := by decide +kernel

/-- R90's example and 95 vector IL1 (5-Q), with ECBUF[j] = 100 + j. -/
theorem test_interleave_two_groups :
    seen (fun t => (t.readBlock 0x03000 8, t.readBlock (0x03000 + 60) 6))
      (exec .interleave (((running .interleave 5 2 .ecDone).storeBlock 0x01000 (counting 62)).storeBlock 0x02000
        ((List.range 72).map fun j => BitVec.ofNat 8 (100 + j)))) =
      some ([0, 15, 30, 46, 1, 16, 31, 47], [45, 61, 100, 118, 136, 154]) := by decide +kernel

/-- 95 section 2.6, version 1, rows 0 and 8. -/
theorem test_build_func_version_1 :
    seen (fun t => (rowBytes 0 0 21 t, rowBytes 8 0 21 t)) (exec .buildFunc (running .buildFunc 1 1 .ilDone)) =
      some ([0x07, 0x07, 0x07, 0x07, 0x07, 0x07, 0x07, 0x06, 0x0E, 0x00, 0x00, 0x00, 0x00, 0x06, 0x07, 0x07, 0x07, 0x07, 0x07, 0x07, 0x07],
        [0x0E, 0x0E, 0x0E, 0x0E, 0x0E, 0x0E, 0x07, 0x0E, 0x0E, 0x00, 0x00, 0x00, 0x00, 0x0E, 0x0E, 0x0E, 0x0E, 0x0E, 0x0E, 0x0E, 0x0E]) := by
  decide +kernel

/-- 95 section 2.6, the alignment pattern of version 2, rows 16 and 17. -/
theorem test_build_func_alignment :
    seen (fun t => (rowBytes 16 16 5 t, rowBytes 17 16 5 t)) (exec .buildFunc (running .buildFunc 2 0 .ilDone)) =
      some ([0x07, 0x07, 0x07, 0x07, 0x07], [0x07, 0x06, 0x06, 0x06, 0x07]) := by decide +kernel

/-- CWBUF of P1 stored, the symbol of version 1 drawn, PLACE running. -/
def placing : State := ((running .place 1 1 .funcDone).storeBlock 0x03000 (helloData ++ helloEc)).storeGrid (funcGrid 1)

/-- R104's example: the first eight cells of Z. -/
theorem test_place_hello :
    seen (fun t => [(20, 20), (20, 19), (19, 20), (19, 19), (18, 20), (18, 19), (17, 20), (17, 19)].map
      fun p : Nat × Nat => (t.readCell p.1 p.2).toByte) (exec .place placing) =
      some [0x04, 0x04, 0x05, 0x04, 0x04, 0x04, 0x04, 0x04] := by decide +kernel

/-- R119's example: the penalties and the total of mask 0. -/
theorem test_score_hello :
    seen (fun t => (t.pen[0], t.pentot[0])) (exec .score ((running .score 1 1 .placed).storeGrid helloPlaced)) =
      some (⟨191, 159, 40, 0⟩, 390) := by decide +kernel

/-- R120's example and the rows 0 and 8 of the final matrix of P1. -/
theorem test_finalize_hello :
    seen (fun t => (t.statusWord, rowBytes 0 0 21 t, rowBytes 8 0 21 t))
      (exec .finalize (((running .finalize 1 1 .scored).storeGrid helloPlaced).setScores State.reset.pen
        #v[390, 513, 480, 557, 525, 526, 598, 468])) =
      some (0x00006002,
        [0x07, 0x07, 0x07, 0x07, 0x07, 0x07, 0x07, 0x06, 0x0E, 0x04, 0x05, 0x04, 0x05, 0x06, 0x07, 0x07, 0x07, 0x07, 0x07, 0x07, 0x07],
        [0x0F, 0x0E, 0x0F, 0x0E, 0x0F, 0x0E, 0x07, 0x0E, 0x0E, 0x05, 0x04, 0x04, 0x05, 0x0E, 0x0E, 0x0E, 0x0F, 0x0E, 0x0E, 0x0F, 0x0E]) := by
  decide +kernel

/-- DBUF of P1 loaded under 1-M. -/
def helloLoaded : State := (ready 1 1 .idle).storeBlock 0x01000 helloData

/-- Program P1: RUN from the loaded data, the stream and the lowest total. -/
theorem test_run_hello :
    seen (fun t => (t.status.phase, t.status.done, t.readBlock 0x03000 26, t.pentot[0])) (exec .run (accept .run helloLoaded)) =
      some (.final, true, [32, 91, 11, 120, 209, 114, 220, 77, 67, 64, 236, 17, 236, 17, 236, 17,
        196, 35, 39, 119, 235, 215, 231, 226, 93, 23], 390) := by decide +kernel

/-! ### Arithmetic, tables and penalties (95 sections 2.1 to 2.10) -/

theorem test_gfmul : gfmul 0x53 0xCA = 0x8F ∧ gfmul 0xFF 0xFF = 0xE2 ∧ gfmul 0x02 0x80 = 0x1D ∧ gfadd 0x53 0xCA = 0x99 := by
  decide
theorem test_log : gfLog 0xFF = some 175 ∧ gfLog 0x8E = some 254 ∧ gfLog 0x00 = none ∧ gfExp 254 = 0x8E := by decide
theorem test_geometry_5q :
    (ready 5 2 .idle).geom0 = 0x00003E25 ∧ (ready 5 2 .idle).geom1 = 0x07092086 ∧ (ready 5 2 .idle).geom2 = 0x10020F02 := by
  decide
theorem test_geometry_40l :
    (ready 40 0 .idle).geom0 = 0x000B8CB1 ∧ (ready 40 0 .idle).geom1 = 0x0033EE7A ∧ (ready 40 0 .idle).geom2 = 0x77067613 := by
  decide
theorem test_masks :
    (List.range 8).map (maskCond · 2 3) = [false, true, true, false, true, true, true, false] ∧
    (List.range 8).map (maskCond · 9 4) = [false, false, false, false, false, true, true, false] := by decide
theorem test_penalties_all_light :
    pen1 21 (List.replicate 21 (List.replicate 21 false)) = 798 ∧ pen2 (List.replicate 21 (List.replicate 21 false)) = 1200 ∧
    pen3 21 (List.replicate 21 (List.replicate 21 false)) = 0 ∧ pen4 21 (List.replicate 21 (List.replicate 21 false)) = 100 := by
  decide +kernel
theorem test_balance : [0, 198, 199, 242, 243, 264, 265, 441].map (balance 21) = [100, 10, 0, 0, 10, 10, 20, 100] := by decide
theorem test_tie_goes_to_lowest : selectMask #v[500, 500, 480, 480, 600, 600, 600, 600] = 2 := by decide
theorem test_words : fmtWord 1 0 = 0b101010000010010 ∧ fmtWord 3 7 = 0b000100000111011 ∧ verWord 21 = 0x15683 := by decide
theorem test_order_version_1 :
    (zigzag 21 (funcGrid 1)).take 4 = [(20, 20), (20, 19), (19, 20), (19, 19)] := by decide +kernel

/-! ### The host port (95 section 2.12) -/

theorem test_port_reads :
    hostReadData 0x00000 4 (ready 1 1 .idle) = some 0x51520007 ∧ hostReadData 0x00000 2 (ready 1 1 .idle) = none ∧
    hostReadData 0x00002 4 (ready 1 1 .idle) = none ∧ hostReadData 0x0019C 4 (ready 1 1 .idle) = some 0 ∧
    hostReadData 0x001A0 4 (ready 1 1 .idle) = none ∧ hostReadData 0x04000 4 (ready 1 1 .idle) = none ∧
    hostReadData 0x10015 1 (ready 1 1 .idle) = some 0 ∧ hostReadData 0x11500 1 (ready 1 1 .idle) = some 0 := by decide
theorem test_port_write_dbuf :
    seen (fun t => (hostReadData 0x01005 1 t, t.resp)) (step (facing [.host (.wr8 0x01005 0xAB)] (ready 1 1 .final))) =
      some (some 0xAB, some ⟨false, none⟩) := by decide
theorem test_port_write_cfg_all_ones :
    seen (fun t => t.registerWord 0x004) (step (facing [.host (.wr32 0x00004 0xFFFFFFFF)] State.reset)) = some 0x0000033F := by
  decide

/-! ### Witnesses: concrete states and operands that meet the hypotheses of each statement -/

theorem witness_NineWordsAndNoOtherDecode : (0x30 : Word) ∈ nineWords ∧ (0x31 : Word) ∉ nineWords := by decide

theorem witness_StepRunsTheSubmittedCommand :
    (facing [submission 0x21, .engine] State.reset).script = submission 0x21 :: [.engine] ∧ decode 0x21 = .ok .place ∧
    State.reset.status.busy = false ∧ State.reset.status.err = false ∧
    (facing [submission 0x01] (running .run 1 1 .idle)).script = submission 0x01 :: [] ∧ decode 0x01 = .ok .softReset := by
  decide

theorem witness_StepCompletesTheRunningCommand :
    EngineNext (running .run 40 3 .final) ∧ EngineNext (facing [.engine, .hardReset] (running .nop 0 0 .idle)) ∧
    (running .run 40 3 .final).status.busy = true ∧ (running .run 40 3 .final).curOp = opcode .run ∧
    (running .nop 0 0 .idle).status.busy = true ∧ (running .nop 0 0 .idle).curOp = opcode .nop :=
  ⟨.inl rfl, .inr ⟨[.hardReset], rfl⟩, rfl, rfl, rfl, rfl⟩

theorem witness_WordsAreRefusedWhileBusyOrErr :
    (facing [submission 0x00] (running .nop 0 0 .idle)).script = submission 0x00 :: [] ∧
    (running .nop 0 0 .idle).status.busy = true ∧ failed.status.err = true ∧ (0x00 : Word) ≠ 0x01 ∧ (0x02 : Word) ≠ 0x01 := by
  decide

/-- Valid at both ends of the version range, not valid next to them. -/
theorem witness_Valid :
    Valid (ready 1 0 .idle) ∧ Valid (ready 40 3 .idle) ∧ ¬ Valid (ready 0 0 .idle) ∧ ¬ Valid (ready 41 0 .idle) ∧
    ¬ Valid (ready 63 0 .idle) := by
  unfold Valid; decide

/-- Every command but SOFT_RESET is in an accepting phase, at the ends of its phases, with BUSY = 0 and ERR = 0. -/
theorem witness_LegalCommandsAreAccepted :
    (∀ p ∈ [(Instr.nop, Phase.idle), (.rsEncode, .final), (.interleave, .ecDone), (.interleave, .final),
      (.buildFunc, .ilDone), (.buildFunc, .final), (.place, .funcDone), (.score, .placed), (.score, .scored),
      (.finalize, .scored), (.run, .idle)],
      p.1 ≠ .softReset ∧ (ready 40 3 p.2).status.busy = false ∧ (ready 40 3 p.2).status.err = false ∧
      (NeedsValid p.1 → Valid (ready 40 3 p.2)) ∧ (ready 40 3 p.2).status.phase ∈ requiredPhases p.1) ∧
    ¬ NeedsValid .nop := by
  unfold NeedsValid Valid; decide

theorem witness_TakenErrorsAreRecordedExactly :
    (facing [submission 0x02] State.reset).script = submission 0x02 :: [] ∧ (0x02 : Word) ∉ nineWords ∧
    State.reset.status.busy = false ∧ State.reset.status.err = false ∧ decode 0x30 = .ok .run ∧ decode 0x21 = .ok .place := by
  decide

theorem witness_raises_cfgInvalid : Raises (ready 41 1 .funcDone) .run .cfgInvalid :=
  .cfgInvalid (by unfold NeedsValid; decide) (by unfold Valid; decide)

theorem witness_raises_sequence : Raises (ready 1 1 .ilDone) .place .sequence :=
  .sequence (fun _ => by unfold Valid; decide) (by decide)

/-- Each command running under the smallest and the largest configuration: BUSY, CUR_OP and a valid CFG. -/
theorem witness_completions :
    ∀ p ∈ [(Instr.nop, (0x00 : Byte)), (.rsEncode, 0x10), (.interleave, 0x11), (.buildFunc, 0x20), (.score, 0x22),
      (.finalize, 0x23), (.run, 0x30)], ∀ q ∈ [(1, 0), (40, 3)],
      (running p.1 q.1 q.2 .scored).status.busy = true ∧ (running p.1 q.1 q.2 .scored).curOp = p.2 ∧
      Valid (running p.1 q.1 q.2 .scored) := by
  unfold Valid; decide

/-- The order of R102 reads only cells of the symbol (version 1). -/
theorem placementOrder_congr {f g : Nat → Nat → Bool} (h : ∀ r < 21, ∀ c < 21, f r c = g r c) :
    placementOrder 21 f = placementOrder 21 g := by
  have hcols : ∀ p ∈ (rightColumns 21).zipIdx, p.1 < 21 := by decide
  refine List.flatMap_congr fun p hp => List.flatMap_congr fun v _ => List.filterMap_congr fun c hc => ?_
  have := hcols p hp
  have hv : v < 21 := by simpa using ‹v ∈ List.range 21›
  have hc' : c < 21 := by
    simp only [List.mem_cons, List.not_mem_nil, or_false] at hc
    omega
  have hr : (if p.2 % 2 = 0 then 21 - 1 - v else v) < 21 := by split <;> omega
  simp only [h _ hr _ hc']

/-- The cells of `placing` are those BUILD_FUNC drew. -/
theorem placing_cell (r c : Nat) (hr : r < 21) (hc : c < 21) : placing.readCell r c = (funcGrid 1).get r c :=
  State.readCell_storeGrid _ (square_funcGrid 1) (by decide) hr hc

/-- What BUILD_FUNC drew for version 1 (R43): RSV implies FUNC, FUNC is SET, column 6 is all function modules. -/
theorem funcGrid_1_cells :
    (∀ r < 21, ∀ c < 21, (((funcGrid 1).get r c).rsv = true → ((funcGrid 1).get r c).func = true) ∧
      ((funcGrid 1).get r c).set = ((funcGrid 1).get r c).func) ∧
    ∀ r < 21, ((funcGrid 1).get r 6).func = true := by decide +kernel

theorem witness_PlaceCompletes :
    placing.status.busy = true ∧ placing.curOp = 0x21 ∧ Valid placing ∧
    (orderOf placing).length = 8 * placing.total + remOf placing.version ∧
    (∀ r c, r < placing.side → c < placing.side → (placing.readCell r c).func = true → (placing.readCell r c).set = true) ∧
    (∀ r, r < placing.side → (placing.readCell r 6).func = true) := by
  refine ⟨rfl, rfl, by unfold Valid; decide, ?_, ?_, ?_⟩
  · have h : orderOf placing = placementOrder 21 fun r c => ((funcGrid 1).get r c).func :=
      placementOrder_congr fun r hr c hc => by rw [placing_cell r c hr hc]
    rw [h]; decide +kernel
  · intro r c hr hc hf
    rw [placing_cell r c hr hc] at hf ⊢
    rw [(funcGrid_1_cells.1 r hr c hc).2, hf]
  · intro r hr
    rw [placing_cell r 6 hr (by decide)]
    exact funcGrid_1_cells.2 r hr

/-- PLACE running over a cleared symbol of version 1: its order has 420 cells. -/
def placingOverClear : State :=
  (running .place 1 1 .funcDone).storeGrid (Grid.tabulate 21 fun _ _ => Cell.unset)

theorem witness_PlaceRaisesInternal :
    placingOverClear.status.busy = true ∧ placingOverClear.curOp = 0x21 ∧ Valid placingOverClear ∧
    (orderOf placingOverClear).length ≠ 8 * placingOverClear.total + remOf placingOverClear.version := by
  refine ⟨rfl, rfl, by unfold Valid; decide, ?_⟩
  have h : orderOf placingOverClear = placementOrder 21 fun _ _ => false :=
    placementOrder_congr fun r hr c hc => by
      rw [show placingOverClear.readCell r c = _ from
        State.readCell_storeGrid _ (Grid.square_tabulate 21 _) (by decide) hr hc, Grid.get_tabulate _ hr hc]
      rfl
  rw [h]; decide +kernel

theorem witness_SoftResetIsPerformed :
    ((running .run 40 3 .final).status.busy = true ∧ (running .run 40 3 .final).curOp ≠ 0x00 ∧ Valid (running .run 40 3 .final)) ∧
    ((running .nop 0 0 .idle).status.busy = true ∧ (running .nop 0 0 .idle).curOp = 0x00) ∧
    State.reset.status.busy = false ∧ ¬ InOutput (running .nop 0 0 .idle) 0x02000 := by
  refine ⟨by unfold Valid; decide, by decide, rfl, ?_⟩
  rintro (⟨h, _⟩ | ⟨h, _⟩ | ⟨h, _⟩) <;> exact absurd h (by decide)

theorem witness_RunEqualsTheSixCommands :
    helloLoaded.status.busy = false ∧ helloLoaded.status.err = false ∧
    ∃ t, Sys2Proof.core.run 2 (withScript helloLoaded (issueAll [.run])) = .next t ∧ t.status.err = false := by
  refine ⟨rfl, rfl, ?_⟩
  obtain ⟨t, ht, he⟩ := next_of_seen (f := fun t => !t.status.err)
    (o := Sys2Proof.core.run 2 (withScript helloLoaded (issueAll [.run]))) (by decide +kernel)
  exact ⟨t, ht, by simpa using he⟩

theorem witness_HardResetFromAnyState :
    (facing [.hardReset, .engine] (running .run 40 3 .final)).script = .hardReset :: [.engine] := rfl

/-- PLACE running over the symbol BUILD_FUNC drew meets the invariant. -/
theorem witness_invariant : placing.Inv where
  mem := State.wf_storeGrid (by decide) (square_funcGrid 1) (by decide)
  flags := by unfold State.FlagsOk; decide
  engine := fun _ => ⟨.place, by decide, by decide, by decide⟩
  config := fun _ => by decide
  scores := by unfold State.ScoresOk; decide
  matrix := by
    refine ⟨fun _ r c hr hc => ?_, fun hp => absurd hp (by decide)⟩
    rw [placing_cell r c hr hc]
    exact ⟨(funcGrid_1_cells.1 r hr c hc).1, fun hs => (funcGrid_1_cells.1 r hr c hc).2 ▸ hs⟩
  fresh := fun _ r c hr hc => placing_cell r c hr hc

/-- From that state a step gives a next state (for the statements about every step). -/
theorem witness_step_from_invariant : ∃ t, step placing = .next t :=
  exec_next .place _

/-- After an INTERNAL error the machine meets the invariant and steps on, INTERNAL still recorded. -/
theorem witness_NoStepRaisesInternal :
    ∃ s t : State, s.Inv ∧ step s = .next t ∧ t.status.errcode = .internal := by
  refine ⟨{ failed with
    status := { failed.status with errcode := .internal }
    errinfo := ⟨0x21, .funcDone, false⟩ }, _, ⟨by decide, ?_, ?_, ?_, ?_, ?_, ?_⟩, rfl, rfl⟩
  · unfold State.FlagsOk; decide
  · exact fun h => absurd h (by decide)
  · exact fun h => absurd rfl h
  · unfold State.ScoresOk; decide
  · exact ⟨fun h => absurd h (by decide), fun h => absurd h (by decide)⟩
  · exact fun h => absurd h (by decide)

theorem witness_CompletionKeepsInputs :
    (running .rsEncode 40 3 .idle).status.busy = true ∧ (running .rsEncode 40 3 .idle).running = some .rsEncode ∧
    Valid (running .rsEncode 40 3 .idle) ∧ (∃ t, exec .rsEncode (running .rsEncode 40 3 .idle) = .next t) ∧
    (running .nop 0 0 .idle).running = some .nop :=
  ⟨rfl, by decide, by unfold Valid; decide, exec_next _ _, by decide⟩

theorem witness_OnlyTheseEventsChangePhase :
    ∃ t, step (facing [.host (.wr8 0x01FFF 7)] (ready 1 1 .final)) = .next t ∧ t.status.phase ≠ (ready 1 1 .final).status.phase := by
  obtain ⟨t, ht, hp⟩ := next_of_seen (f := fun t => decide (t.status.phase ≠ .final))
    (o := step (facing [.host (.wr8 0x01FFF 7)] (ready 1 1 .final))) (by decide)
  exact ⟨t, ht, of_decide_eq_true hp⟩

theorem witness_OnlyTheseEventsChangeErr :
    (∃ t, step (facing [.host (.wr32 0x0000C 4)] failed) = .next t ∧ failed.status.err = true ∧ t.status.err = false) ∧
    (∃ t, step (facing [submission 0x02] State.reset) = .next t ∧ State.reset.status.err = false ∧ t.status.err = true) :=
  ⟨⟨_, rfl, rfl, rfl⟩, ⟨_, rfl, rfl, rfl⟩⟩

/-- At the two sides of the end of the registers, and of BUSY. -/
theorem witness_SlverrExactlyForItsCauses :
    (facing [.host (.rd32 0x00024)] State.reset).script = .host (.rd32 0x00024) :: [] ∧ SlverrCause State.reset (.rd32 0x00024) ∧
    ¬ SlverrCause State.reset (.rd32 0x00020) ∧ SlverrCause (running .nop 0 0 .idle) (.rd8 0x10000) ∧
    ¬ SlverrCause (running .nop 0 0 .idle) (.rd8 0x01FFF) := by
  unfold SlverrCause InOneRegion
  refine ⟨rfl, .inl (by decide), ?_, .inr (.inr (.inr (.inr (.inr (.inr (by decide)))))), ?_⟩
  · rintro (h | h | h | h | ⟨_, w, h, _⟩ | h | h)
    · exact absurd h (by decide)
    · exact absurd h (by decide)
    · exact absurd h (by decide)
    · exact absurd h (by decide)
    · cases h
    · exact absurd h (by decide)
    · exact absurd h (by decide)
  · rintro (h | h | h | h | ⟨_, w, h, _⟩ | h | h)
    · exact absurd h (by decide)
    · exact absurd h (by decide)
    · exact absurd h (by decide)
    · exact absurd h (by decide)
    · cases h
    · exact absurd h (by decide)
    · exact absurd h (by decide)

theorem witness_ReadsHaveNoSideEffects :
    (facing [.host (.rd8 0x1FFFF)] State.reset).script = .host (.rd8 0x1FFFF) :: [] ∧ isWrite (.rd8 0x1FFFF) = false := by decide

theorem witness_BusyProtectsTheRunningCommand :
    (facing [.host (.wr32 0x00004 0x101)] (running .run 1 1 .idle)).script = .host (.wr32 0x00004 0x101) :: [] ∧
    (running .run 1 1 .idle).status.busy = true ∧ Event.host (.wr32 0x00004 0x101) ≠ submission 0x01 ∧
    ∃ t, step (facing [.host (.wr32 0x00004 0x101)] (running .run 1 1 .idle)) = .next t :=
  ⟨rfl, rfl, by decide, _, rfl⟩

theorem witness_InputWritesSetPhaseIdle :
    (∃ t, step (facing [.host (.wr32 0x00004 0x101)] (ready 1 1 .final)) = .next t ∧ t.resp = some ⟨false, none⟩) ∧
    (∃ t, step (facing [.host (.wr8 0x01000 0)] (ready 1 1 .final)) = .next t ∧ t.resp = some ⟨false, none⟩) ∧
    (∃ t, step (facing [.host (.wr8 0x01FFF 0)] (ready 1 1 .final)) = .next t ∧ t.resp = some ⟨false, none⟩) ∧
    isWrite (.wr8 0x01FFF 0) = true ∧ accessAddr (.wr8 0x01FFF 0) = 0x01FFF :=
  ⟨ok_of_seen (by decide), ok_of_seen (by decide), ok_of_seen (by decide), rfl, rfl⟩

/-- Each size at the first and the last address of DBUF it can reach, and reads up to the end of CWBUF. -/
theorem witness_DbufWordWriteIsLittleEndian :
    (∀ (n : Nat) (a : BitVec 17), (facing [.host (writeOf n a 0x780B5B20)] State.reset).script =
      .host (writeOf n a 0x780B5B20) :: []) ∧
    State.reset.status.busy = false ∧
    (∀ p ∈ [(1, 0x01000), (2, 0x01000), (4, 0x01000), (1, 0x01FFF), (2, 0x01FFE), (4, 0x01FFC)],
      p.1 ∈ [1, 2, 4] ∧ 0x01000 ≤ (BitVec.ofNat 17 p.2).toNat ∧ (BitVec.ofNat 17 p.2).toNat + p.1 ≤ 0x02000 ∧
        (BitVec.ofNat 17 p.2).toNat % p.1 = 0) ∧
    (∀ p ∈ [(1, 0x02000), (4, 0x02FFC), (2, 0x03000), (1, 0x03FFF), (4, 0x03FFC)],
      p.1 ∈ [1, 2, 4] ∧ p.2 % p.1 = 0 ∧ 0x02000 ≤ p.2 ∧ p.2 + p.1 ≤ 0x04000) :=
  ⟨fun _ _ => rfl, rfl, by decide +kernel, by decide +kernel⟩

theorem witness_register_writes :
    (facing [.host (.wr32 0x00004 0x101)] State.reset).script = .host (.wr32 0x00004 0x101) :: [] ∧
    (facing [.host (.wr32 0x0000C 6)] failed).script = .host (.wr32 0x0000C 6) :: [] ∧
    (facing [.host (.wr32 0x00010 3)] failed).script = .host (.wr32 0x00010 3) :: [] ∧ State.reset.status.busy = false :=
  ⟨rfl, rfl, rfl, rfl⟩

theorem witness_OnlyTheseEventsChangeIrq :
    ∃ t, step (facing [.host (.wr32 0x00010 2)] failed) = .next t ∧ t.irq ≠ failed.irq :=
  ⟨_, rfl, by decide⟩

/-- A word across the right edge of the symbol: (20, 20) lies inside it, (20, 21) and (21, 20) outside. -/
theorem witness_MatrixWindowShowsTheSymbol :
    (ready 1 1 .idle).status.busy = false ∧ (4 : Nat) ∈ [1, 2, 4] ∧ (20 : Nat) < 256 ∧ 20 % 4 = 0 ∧ Valid (ready 1 1 .idle) ∧
    20 < (ready 1 1 .idle).side ∧ 20 + 0 < (ready 1 1 .idle).side ∧ ¬ (20 + 1 < (ready 1 1 .idle).side) ∧
    (252 : Nat) < 256 ∧ 252 % 4 = 0 ∧ ¬ Valid (ready 0 0 .idle) := by
  unfold Valid; decide

/-- 95 section 2.12: `rd32 0x11414` gives the byte of (20, 20) with 0 beside it; here a dark function module. -/
theorem test_port_word_across_the_edge :
    hostReadData 0x11414 4 ((ready 1 1 .idle).storeBlock 0x11414 [0x07, 0x05]) = some 0x00000007 := by decide

theorem witness_PenaltyRegistersAreReadAtTheirOffsets : State.reset.status.busy = false ∧ (7 : Fin 8).val = 7 := by decide

theorem witness_TablesMultiplyAsTheField :
    (254 : Nat) < 255 ∧ (0xFF : Byte) ≠ 0 ∧ (255 : Nat) < 256 := by decide

theorem witness_FieldLawsHold : (0x01 : Byte) ≠ 0x00 ∧ (0xFF : Byte) ≠ 0x00 := by decide

theorem witness_RemainderIsLinear : helloData.length = (counting 16).length := by decide

theorem witness_CodewordHasZeroSyndromes : (0 : Nat) < 30 ∧ (29 : Nat) < 30 := by decide

/-- The ends of the ranges of versions, levels and positions, the pairs of information words included. -/
theorem witness_ranges :
    (1 : Nat) ≤ 1 ∧ (40 : Nat) ≤ 40 ∧ (3 : Nat) < 4 ∧ (2 : Nat) < 3 ∧ (7 : Nat) ≤ 7 ∧ 20 < 4 * 1 + 17 ∧ 176 < 4 * 40 + 17 ∧
    ((0 : Fin 4), (0 : Fin 8)) ≠ (3, 7) ∧ (7 : Nat) < 8 ∧ 0 < (blockRow 40 3).n2 ∧ (blockRow 1 0).n2 = 0 := by decide

theorem witness_MaskingTwiceRestores :
    (Cell.fn true false).func = true ∧ (7 : Nat) < 8 ∧ (0 : Nat) ≠ 7 ∧ (9 : Nat) < 21 ∧ Cell.unset.func = false ∧
    maskCond 0 9 9 ≠ maskCond 1 9 9 := by decide

/-- A square of the smallest side that rule 3 scores, and one of version 1. -/
theorem witness_squares :
    IsSquareArray 11 (List.replicate 11 (List.replicate 11 true)) ∧ (11 : Nat) ≤ 11 ∧
    IsSquareArray (4 * 1 + 17) (List.replicate 21 (List.replicate 21 false)) ∧
    0 = ((positions 21).filter fun p => colourAt (List.replicate 21 (List.replicate 21 false)) p.1 p.2).length := by
  refine ⟨?_, by decide, ?_, by decide +kernel⟩ <;> · unfold IsSquareArray; decide

end Sys2Proof.Tests
end

section
/-! PROOFS. What one step of the machine can do, said once: the engine's opportunity in terms of CUR_OP and the body of
the running command, the host's writes by register, and the effects of a step as one inductive relation. -/

namespace Sys2Proof.Machine

open Sys2Proof.Claims

/-! ### Opcodes and command words -/

@[simp] theorem splitWord_joinWord (c : RawCommand) : splitWord (joinWord c) = c := by
  obtain ⟨rsvd, opc⟩ := c
  have hr : (rsvd ++ opc).extractLsb' 8 24 = rsvd := BitVec.extractLsb'_append_eq_left
  have ho : (rsvd ++ opc).extractLsb' 0 8 = opc := BitVec.extractLsb'_append_eq_right
  simp only [splitWord, joinWord, hr, ho]

@[simp] theorem joinWord_splitWord (w : Word) : joinWord (splitWord w) = w := by
  simp only [splitWord, joinWord]
  have h : w.extractLsb' 8 24 ++ w.extractLsb' 0 8 = w.extractLsb' 0 32 :=
    BitVec.extractLsb'_append_extractLsb'_eq_extractLsb' (w := 32) rfl
  rw [h, BitVec.extractLsb'_eq_self]

theorem opcodeMap_rows : ∀ row ∈ opcodeMap, row.1 = opcode row.2 := by decide

theorem ofOpcode_opcode (i : Instr) : ofOpcode (opcode i) = some i := by
  cases i <;> decide

theorem ofOpcode_eq_some {b : Byte} {i : Instr} : ofOpcode b = some i ↔ b = opcode i := by
  constructor
  · intro h
    obtain ⟨row, hfind, rfl⟩ := Option.map_eq_some_iff.mp h
    have hkey : row.1 = b := by simpa using List.find?_some hfind
    rw [← hkey, opcodeMap_rows row (List.mem_of_find?_eq_some hfind)]
  · rintro rfl
    exact ofOpcode_opcode i

/-- A word decodes to a command exactly when its RSVD is 0 and its OPC is the command's (R62). -/
theorem decode_eq_ok {w : Word} {i : Instr} :
    decode w = .ok i ↔ splitWord w = ⟨0, opcode i⟩ := by
  rcases hc : splitWord w with ⟨rsvd, opc⟩
  simp only [decode, hc, RawCommand.reservedZero, RawCommand.mk.injEq, beq_iff_eq, ← ofOpcode_eq_some]
  by_cases hr : rsvd = 0
  · cases ho : ofOpcode opc <;> simp [hr]
  · simp only [hr, if_false, false_and, reduceCtorEq]

theorem eq_encode_of_decode {w : Word} {i : Instr} (h : decode w = .ok i) : w = encode i := by
  rw [encode, ← decode_eq_ok.mp h, joinWord_splitWord]

theorem encode_softReset : encode .softReset = 0x00000001 := by decide

/-- CUR_OP names a running command exactly when it holds the opcode of a command other than SOFT_RESET (R34, R74). -/
theorem running_eq_some {s : State} {i : Instr} : s.running = some i ↔ i ≠ .softReset ∧ s.curOp = opcode i := by
  have hword (j : Instr) : decode (joinWord ⟨0, s.curOp⟩) = .ok j ↔ s.curOp = opcode j := by
    simp [decode_eq_ok]
  rw [← hword]
  unfold State.running
  split
  next h =>
    simp only [h, Except.ok.injEq, reduceCtorEq, false_iff, not_and]
    exact fun hi hi' => hi hi'.symm
  next j hj h =>
    simp only [h, Except.ok.injEq, Option.some.injEq]
    exact ⟨fun hji => ⟨hji ▸ hj, hji⟩, fun hji => hji.2⟩
  next e h => simp only [h, reduceCtorEq, and_false]

/-! ### Commands and their bodies -/

/-- The body of a command (R71); that of SOFT_RESET, which has no completion step (R74), does nothing. -/
def bodyOf : Instr → State → BodyResult
  | .nop => bodyNop
  | .softReset => bodyNop
  | .rsEncode => bodyRsEncode
  | .interleave => bodyInterleave
  | .buildFunc => bodyBuildFunc
  | .place => bodyPlace
  | .score => bodyScore
  | .finalize => bodyFinalize
  | .run => bodyRun

theorem exec_eq_command {i : Instr} (hi : i ≠ .softReset) (s : State) :
    exec i s = .next (command i (bodyOf i) s) := by
  cases i with
  | softReset => exact absurd rfl hi
  | _ => rfl

/-- With BUSY = 1 and the command in CUR_OP its meaning is its completion step (R71). -/
theorem exec_running {i : Instr} {s : State} (hb : s.status.busy = true) (hr : s.running = some i) :
    exec i s = .next (complete i (bodyOf i) s) := by
  obtain ⟨hi, hop⟩ := running_eq_some.mp hr
  rw [exec_eq_command hi, command, if_pos (by simp [hb, hop])]

/-- With BUSY = 0 and ERR = 0 the meaning of a command other than SOFT_RESET is to be taken (R69). -/
theorem exec_idle {i : Instr} (hi : i ≠ .softReset) {s : State} (hb : s.status.busy = false)
    (he : s.status.err = false) : exec i s = .next (respondOk (take i s)) := by
  rw [exec_eq_command hi, command, if_neg (by simp [hb]), issue, if_neg (by simp [hb, he])]

/-! ### The events of a step -/

theorem step_engineNext {s : State} (h : EngineNext s) : step s = engineStep (s.setScript (restOf s)) := by
  rcases h with h | ⟨rest, h⟩
  · rw [step_nil h, restOf, h]
    exact congrArg engineStep (by rw [List.tail_nil, ← h]; rfl)
  · rw [step_cons h, restOf, h]
    rfl

/-- The engine's opportunity while BUSY, the command in CUR_OP known. -/
theorem engineStep_running {i : Instr} {s : State} (hb : s.status.busy = true) (hr : s.running = some i) :
    engineStep s = exec i s := by
  simp [engineStep, hb, hr]

theorem step_host {s : State} {h : HostAccess} {rest : List Event} (hs : s.script = .host h :: rest) :
    step s = hostAccess h (s.setScript rest) := step_cons hs

/-! ### The regions of the port -/

/-- The first address of a region and the address past its last (R46). -/
def Region.bounds : Region → Nat × Nat
  | .regs => (0x00000, 0x00024)
  | .pens => (0x00100, 0x001A0)
  | .dbuf => (0x01000, 0x02000)
  | .ecbuf => (0x02000, 0x03000)
  | .cwbuf => (0x03000, 0x04000)
  | .matrix => (0x10000, 0x20000)

theorem regionOf_eq_some {a : Nat} {r : Region} : regionOf a = some r ↔ r.bounds.1 ≤ a ∧ a < r.bounds.2 := by
  unfold regionOf Config.dbufBase Config.ecbufBase Config.cwbufBase Config.matrixBase Config.bufSize Config.addrEnd
  constructor
  · intro h
    split_ifs at h <;> cases h <;> simp only [Region.bounds] <;> omega
  · rintro ⟨hlo, hhi⟩
    cases r <;> simp only [Region.bounds] at hlo hhi
    case regs => rw [if_pos (by omega)]
    case pens => rw [if_neg (by omega), if_pos (by omega)]
    case dbuf => rw [if_neg (by omega), if_neg (by omega), if_pos (by omega)]
    case ecbuf => rw [if_neg (by omega), if_neg (by omega), if_neg (by omega), if_pos (by omega)]
    case cwbuf => rw [if_neg (by omega), if_neg (by omega), if_neg (by omega), if_neg (by omega), if_pos (by omega)]
    case matrix =>
      rw [if_neg (by omega), if_neg (by omega), if_neg (by omega), if_neg (by omega), if_neg (by omega),
        if_pos (by omega)]

theorem target_eq_some {a n : Nat} {r : Region} :
    target a n = some r ↔
      regionOf a = some r ∧ regionOf (a + n - 1) = some r ∧ a % n = 0 ∧ (r.isRegister = true → n = 4) := by
  unfold target
  split
  next r' h =>
    split_ifs with hc
    · simp only [Option.some.injEq, h]
      exact ⟨by rintro rfl; exact ⟨rfl, hc⟩, fun h => h.1⟩
    · simp only [false_iff, h, Option.some.injEq]
      rintro ⟨rfl, hc'⟩
      exact hc hc'
  next h => simp [h]

theorem target_regs {a : Nat} (ha : a < 0x024) (h4 : a % 4 = 0) : target a 4 = some .regs :=
  target_eq_some.mpr ⟨regionOf_eq_some.mpr ⟨Nat.zero_le _, ha⟩,
    regionOf_eq_some.mpr ⟨Nat.zero_le _, by simp only [Region.bounds]; omega⟩, h4, fun _ => rfl⟩

theorem target_pens {a : Nat} (hlo : 0x100 ≤ a) (hhi : a < 0x1A0) (h4 : a % 4 = 0) : target a 4 = some .pens :=
  target_eq_some.mpr ⟨regionOf_eq_some.mpr ⟨hlo, hhi⟩,
    regionOf_eq_some.mpr ⟨by simp only [Region.bounds]; omega, by simp only [Region.bounds]; omega⟩, h4, fun _ => rfl⟩

/-- An access that reaches a register is a 4-byte one (R48). -/
theorem size_of_target_regs {a n : Nat} (h : target a n = some .regs) : n = 4 := by
  obtain ⟨-, -, -, hn⟩ := target_eq_some.mp h
  exact hn rfl

/-- An access that reaches DBUF lies in it with every byte (R47). -/
theorem bounds_of_target_dbuf {a n : Nat} (h : target a n = some .dbuf) : 0x01000 ≤ a ∧ a + n ≤ 0x02000 := by
  obtain ⟨hfirst, hlast, -, -⟩ := target_eq_some.mp h
  have h1 := regionOf_eq_some.mp hfirst
  have h2 := regionOf_eq_some.mp hlast
  simp only [Region.bounds] at h1 h2
  omega

/-! ### Accesses -/

theorem hostRead_eq (a n : Nat) (s : State) : hostRead a n s = s.setResp (readAnswer (hostReadData a n s)) := by
  rcases hostRead_cases a n s with ⟨v, hd, hr⟩ | ⟨hd, hr⟩ <;> rw [hr, hd] <;> rfl

/-- The value a write gives to the port, extended to 32 bits. -/
def writeValue : HostAccess → Word
  | .wr8 _ v => v.setWidth 32
  | .wr16 _ v => v.setWidth 32
  | .wr32 _ v => v
  | _ => 0

theorem hostAccess_read {h : HostAccess} (hr : isWrite h = false) (s : State) :
    hostAccess h s = .next (hostRead (accessAddr h) (accessSize h) s) := by
  cases h with
  | rd8 | rd16 | rd32 => rfl
  | wr8 | wr16 | wr32 => cases hr

theorem hostAccess_write {h : HostAccess} (hw : isWrite h = true) (s : State) :
    hostAccess h s = hostWrite (accessAddr h) (accessSize h) (writeValue h) s := by
  cases h with
  | wr8 | wr16 | wr32 => rfl
  | rd8 | rd16 | rd32 => cases hw

theorem exists_wr32 {h : HostAccess} (hw : isWrite h = true) (h4 : accessSize h = 4) : ∃ a v, h = .wr32 a v := by
  cases h with
  | wr32 a v => exact ⟨a, v, rfl⟩
  | rd8 | rd16 | rd32 => cases hw
  | wr8 | wr16 => cases h4

/-! ### The effects of a step -/

/-- Everything one step can do: the engine's opportunity, the reset input, and one case for each kind of host access. -/
inductive StepEffect (s : State) : State → Prop where
  | idle : EngineNext s → s.status.busy = false → StepEffect s (s.setScript (restOf s))
  | completed (i : Instr) : EngineNext s → s.status.busy = true → s.running = some i →
      StepEffect s (complete i (bodyOf i) (s.setScript (restOf s)))
  | hardReset (rest : List Event) : s.script = .hardReset :: rest → StepEffect s (hardReset (s.setScript rest))
  | read (h : HostAccess) (rest : List Event) : s.script = .host h :: rest → isWrite h = false →
      StepEffect s
        ((s.setScript rest).setResp (readAnswer (hostReadData (accessAddr h) (accessSize h) (s.setScript rest))))
  | refused (h : HostAccess) (rest : List Event) : s.script = .host h :: rest → isWrite h = true →
      StepEffect s (respondSlverr (s.setScript rest))
  | cfg (w : Word) (rest : List Event) : s.script = .host (.wr32 0x00004 w) :: rest → s.status.busy = false →
      StepEffect s (respondOk (writeCfg w (s.setScript rest)))
  | status (w : Word) (rest : List Event) : s.script = .host (.wr32 0x0000C w) :: rest →
      StepEffect s (respondOk (writeStatus w (s.setScript rest)))
  | ien (w : Word) (rest : List Event) : s.script = .host (.wr32 0x00010 w) :: rest →
      StepEffect s (respondOk (writeIen w (s.setScript rest)))
  | dbuf (h : HostAccess) (rest : List Event) : s.script = .host h :: rest → isWrite h = true →
      0x01000 ≤ accessAddr h → accessAddr h + accessSize h ≤ 0x02000 → s.status.busy = false →
      StepEffect s (respondOk (phaseToIdle
        ((s.setScript rest).storeBlock (accessAddr h) (leBytes (accessSize h) (writeValue h)))))
  | softReset (rest : List Event) : s.script = submission 0x00000001 :: rest →
      StepEffect s (respondOk (softReset (s.setScript rest)))
  | illegal (w : Word) (e : DecodeError) (rest : List Event) : s.script = submission w :: rest →
      s.status.busy = false → s.status.err = false → decode w = .error e →
      StepEffect s (respondOk (raiseTaken .illegalCmd (splitWord w).opc (clearDone (s.setScript rest))))
  | taken (i : Instr) (rest : List Event) : s.script = submission (encode i) :: rest → i ≠ .softReset →
      s.status.busy = false → s.status.err = false → StepEffect s (respondOk (take i (s.setScript rest)))

theorem issueIllegal_idle {s : State} (hb : s.status.busy = false) (he : s.status.err = false) (opc : Byte) :
    issueIllegal opc s = respondOk (raiseTaken .illegalCmd opc (clearDone s)) := by
  rw [issueIllegal, if_neg (by simp [hb, he])]

/-- What the CMD write of a word leads to (R69). -/
theorem submit_effect {s t : State} {w : Word} {rest : List Event} (hs : s.script = submission w :: rest)
    (h : submit w (s.setScript rest) = .next t) : StepEffect s t := by
  rcases submit_cases w (s.setScript rest) with
    ⟨-, hw, hx⟩ | ⟨-, -, hx⟩ | ⟨i, hb, he, hd, hx⟩ | ⟨e, hb, he, hd, hx⟩ <;>
    rw [hx] at h
  case inl =>
    cases h
    exact .softReset rest (by rw [hs, hw, encode_softReset])
  case inr.inl =>
    cases h
    exact .refused _ rest hs rfl
  case inr.inr.inl =>
    have hw := eq_encode_of_decode hd
    by_cases hi : i = .softReset
    · subst hi
      cases h
      exact .softReset rest (by rw [hs, hw, encode_softReset])
    · rw [exec_idle hi hb he] at h
      cases h
      exact .taken i rest (by rw [hs, hw]) hi hb he
  case inr.inr.inr =>
    rw [issueIllegal_idle hb he] at h
    cases h
    exact .illegal w e rest hs hb he hd

/-- What a 4-byte write to a register leads to (R21, R25, R26, R52, R69). -/
theorem writeRegister_effect {s t : State} {a : BitVec 17} {w : Word} {rest : List Event}
    (hs : s.script = .host (.wr32 a w) :: rest) (h : writeRegister a.toNat w (s.setScript rest) = .next t) :
    StepEffect s t := by
  have haddr {k : BitVec 17} (hk : a.toNat = k.toNat) : s.script = .host (.wr32 k w) :: rest := by
    rw [hs, BitVec.eq_of_toNat_eq hk]
  unfold writeRegister at h
  split_ifs at h with hcfg hbusy hcmd hstatus hien
  · cases h
    exact .refused _ rest hs rfl
  · cases h
    exact .cfg w rest (haddr hcfg) (by simpa using hbusy)
  · exact submit_effect (haddr hcmd) h
  · cases h
    exact .status w rest (haddr hstatus)
  · cases h
    exact .ien w rest (haddr hien)
  · cases h
    exact .refused _ rest hs rfl

/-- What a host access leads to (R45). -/
theorem hostAccess_effect {s t : State} {h : HostAccess} {rest : List Event} (hs : s.script = .host h :: rest)
    (ht : hostAccess h (s.setScript rest) = .next t) : StepEffect s t := by
  cases hw : isWrite h with
  | false =>
    rw [hostAccess_read hw, hostRead_eq] at ht
    cases ht
    exact .read h rest hs hw
  | true =>
    rw [hostAccess_write hw] at ht
    rcases hostWrite_cases (accessAddr h) (accessSize h) (writeValue h) (s.setScript rest) with
      ⟨htgt, hx⟩ | ⟨htgt, hx⟩ | ⟨-, -, hx⟩ <;> rw [hx] at ht
    · obtain ⟨a, v, rfl⟩ := exists_wr32 hw (size_of_target_regs htgt)
      exact writeRegister_effect hs ht
    · obtain ⟨hlo, hhi⟩ := bounds_of_target_dbuf htgt
      unfold writeDbuf at ht
      split_ifs at ht with hb
      · cases ht
        exact .refused h rest hs hw
      · cases ht
        exact .dbuf h rest hs hw hlo hhi (by simpa using hb)
    · cases ht
      exact .refused h rest hs hw

/-- Every step that gives a next state does one of these things. -/
theorem step_effect {s t : State} (h : step s = .next t) : StepEffect s t := by
  have engine (he : EngineNext s) : StepEffect s t := by
    rw [step_engineNext he] at h
    rcases engineStep_cases (s.setScript (restOf s)) with ⟨hb, hx⟩ | ⟨-, -, hx⟩ | ⟨i, hb, hr, hx⟩ <;> rw [hx] at h
    · cases h
      exact .idle he hb
    · cases h
    · rw [exec_running hb hr] at h
      cases h
      exact .completed i he hb hr
  cases hs : s.script with
  | nil => exact engine (.inl hs)
  | cons e rest =>
    cases e with
    | host a => exact hostAccess_effect hs (step_host hs ▸ h)
    | engine => exact engine (.inr ⟨rest, hs⟩)
    | hardReset =>
      rw [step_cons hs] at h
      cases h
      exact .hardReset rest hs

end Sys2Proof.Machine
end

section
namespace Sys2Proof.Machine

open Sys2Proof.Claims

/-! ### Words of the registers -/

theorem Phase.code_lt (p : Phase) : p.code < 8 := by cases p <;> decide

theorem ErrCode.code_lt (c : ErrCode) : c.code < 16 := by cases c <;> decide

/-- CFG reads back the written word under the mask of its fields (R21). -/
theorem cfgWord_cfgOfWord (w : Word) : cfgWord (cfgOfWord w) = w &&& 0x0000033F := by
  refine BitVec.eq_of_getLsbD_eq fun i hi => ?_
  simp only [cfgWord, cfgOfWord, BitVec.getLsbD_append, BitVec.getLsbD_extractLsb', BitVec.getLsbD_and,
    BitVec.getLsbD_zero]
  interval_cases i <;> simp

/-- IEN reads back the two low bits of the written word (R26). -/
theorem ienWord_ienOfWord (w : Word) : ienWord (ienOfWord w) = w &&& 0x00000003 := by
  refine BitVec.eq_of_getLsbD_eq fun i hi => ?_
  simp only [ienWord, ienOfWord, BitVec.getLsbD_append, BitVec.getLsbD_and, BitVec.getLsbD_zero]
  interval_cases i <;> simp

/-- The fields of CFG (R21). -/
theorem cfgWord_fields (c : Cfg) :
    (cfgWord c).extractLsb' 0 6 = c.version ∧ (cfgWord c).extractLsb' 6 2 = 0 ∧
    (cfgWord c).extractLsb' 8 2 = c.ecl ∧ (cfgWord c).extractLsb' 10 22 = 0 := by
  unfold cfgWord
  refine ⟨?_, ?_, ?_, ?_⟩ <;>
    simp (disch := omega) only [BitVec.extractLsb'_append_eq_of_le, BitVec.extractLsb'_append_eq_of_add_le,
      Nat.reduceSub, BitVec.extractLsb'_eq_self, BitVec.ofNat_eq_ofNat]

/-- The flags and reserved bits of STATUS (R24). -/
theorem statusWord_flags (s : State) :
    s.statusWord.getLsbD 0 = s.status.busy ∧ s.statusWord.getLsbD 1 = s.status.done ∧
    s.statusWord.getLsbD 2 = s.status.err ∧ s.statusWord.getLsbD 3 = s.irq ∧ s.statusWord.getLsbD 11 = false ∧
    s.statusWord.extractLsb' 15 17 = 0 := by
  unfold State.statusWord
  refine ⟨?_, ?_, ?_, ?_, ?_, ?_⟩
  case refine_6 =>
    simp (disch := omega) only [BitVec.extractLsb'_append_eq_of_le, Nat.reduceSub, BitVec.extractLsb'_eq_self,
      BitVec.ofNat_eq_ofNat]
  all_goals
    simp only [BitVec.getLsbD_append]
    simp

/-- The codes in STATUS (R24, R33, R122). -/
theorem statusWord_codes (s : State) :
    (s.statusWord.extractLsb' 4 4).toNat = s.status.errcode.code ∧ s.statusWord.extractLsb' 8 3 = s.status.mask ∧
    (s.statusWord.extractLsb' 12 3).toNat = s.status.phase.code := by
  have herr := s.status.errcode.code_lt
  have hphase := s.status.phase.code_lt
  unfold State.statusWord
  refine ⟨?_, ?_, ?_⟩ <;>
    simp (disch := omega) only [BitVec.extractLsb'_append_eq_of_le, BitVec.extractLsb'_append_eq_of_add_le,
      Nat.reduceSub, BitVec.extractLsb'_eq_self, BitVec.toNat_ofNat, Nat.reducePow, Nat.mod_eq_of_lt]

/-- The fields of IEN (R26). -/
theorem ienWord_fields (e : Ien) :
    (ienWord e).getLsbD 0 = e.doneIe ∧ (ienWord e).getLsbD 1 = e.errIe ∧ (ienWord e).extractLsb' 2 30 = 0 := by
  unfold ienWord
  refine ⟨?_, ?_, ?_⟩
  case refine_3 =>
    simp (disch := omega) only [BitVec.extractLsb'_append_eq_of_le, Nat.reduceSub, BitVec.extractLsb'_eq_self,
      BitVec.ofNat_eq_ofNat]
  all_goals
    simp only [BitVec.getLsbD_append]
    simp

/-- The fields of ERRINFO (R27). -/
theorem errinfoWord_fields (e : ErrInfo) :
    (errinfoWord e).extractLsb' 0 8 = e.opc ∧ ((errinfoWord e).extractLsb' 8 3).toNat = e.phaseAt.code ∧
    (errinfoWord e).getLsbD 11 = e.inRun ∧ (errinfoWord e).extractLsb' 12 20 = 0 := by
  have hphase := e.phaseAt.code_lt
  unfold errinfoWord
  refine ⟨?_, ?_, ?_, ?_⟩
  case refine_3 =>
    simp only [BitVec.getLsbD_append]
    simp
  all_goals
    simp (disch := omega) only [BitVec.extractLsb'_append_eq_of_le, BitVec.extractLsb'_append_eq_of_add_le,
      Nat.reduceSub, BitVec.extractLsb'_eq_self, BitVec.toNat_ofNat, Nat.reducePow, Nat.mod_eq_of_lt,
      BitVec.ofNat_eq_ofNat]

/-! ### Reads of the registers -/

/-- A 4-byte read of a register gives its word in every state (R53). -/
theorem hostReadData_regs {off : Nat} (h : off < 0x024) (h4 : off % 4 = 0) (s : State) :
    hostReadData off 4 s = some (s.registerWord off) := by
  rw [hostReadData, target_regs h h4]

/-- A 4-byte read of a penalty register while BUSY = 0 gives its word. -/
theorem hostReadData_pens {off : Nat} (hlo : 0x100 ≤ off) (hhi : off < 0x1A0) (h4 : off % 4 = 0) {s : State}
    (hb : s.status.busy = false) : hostReadData off 4 s = some (s.penaltyWord off) := by
  rw [hostReadData, target_pens hlo hhi h4]
  simp [hb]

/-- PEN[m][j] stands at 0x100 + 16·m + 4·j (R31). -/
theorem penaltyWord_pen (s : State) (m : Fin 8) {j : Nat} (hj : j < 4) :
    s.penaltyWord (0x100 + 16 * m.val + 4 * j) = (s.pen[m]).get j := by
  have hm : (0x100 + 16 * m.val + 4 * j - 0x100) / 16 = m.val := by omega
  have hj' : (0x100 + 16 * m.val + 4 * j - 0x100) % 16 / 4 = j := by omega
  rw [State.penaltyWord, if_pos (by omega), hm, hj']
  simp

/-- PENTOT[m] stands at 0x180 + 4·m (R32). -/
theorem penaltyWord_pentot (s : State) (m : Fin 8) : s.penaltyWord (0x180 + 4 * m.val) = s.pentot[m] := by
  have hm : (0x180 + 4 * m.val - 0x180) / 4 = m.val := by omega
  rw [State.penaltyWord, if_neg (by omega), hm]
  simp

/-! ### Writes of the registers -/

/-- A 4-byte write at a multiple of 4 in the registers is a register write (R45). -/
theorem hostWrite_regs {off : Nat} (h : off < 0x024) (h4 : off % 4 = 0) (w : Word) (s : State) :
    hostWrite off 4 w s = writeRegister off w s := by
  rw [hostWrite, target_regs h h4]

theorem step_writeRegister {s : State} {a : BitVec 17} {w : Word} {rest : List Event}
    (hs : s.script = .host (.wr32 a w) :: rest) (h : a.toNat < 0x024) (h4 : a.toNat % 4 = 0) :
    step s = writeRegister a.toNat w (s.setScript rest) :=
  (step_host hs).trans (hostWrite_regs h h4 w _)

theorem writeRegister_cfg {s : State} (hb : s.status.busy = false) (w : Word) :
    writeRegister 0x004 w s = .next (respondOk (writeCfg w s)) := by
  rw [writeRegister, if_pos rfl, if_neg (by simp [hb])]

theorem writeRegister_status (w : Word) (s : State) :
    writeRegister 0x00C w s = .next (respondOk (writeStatus w s)) := rfl

theorem writeRegister_ien (w : Word) (s : State) :
    writeRegister 0x010 w s = .next (respondOk (writeIen w s)) := rfl

/-- The registers that take no write: every one but CFG, CMD, STATUS and IEN (R52). -/
theorem writeRegister_readOnly {off : Nat} (h : off ∉ [0x004, 0x008, 0x00C, 0x010]) (w : Word) (s : State) :
    writeRegister off w s = .next (respondSlverr s) := by
  simp only [List.mem_cons, List.not_mem_nil, or_false, not_or] at h
  obtain ⟨hcfg, hcmd, hstatus, hien⟩ := h
  rw [writeRegister, if_neg hcfg, if_neg hcmd, if_neg hstatus, if_neg hien]

/-- A write to a read-only register is refused whatever its size (R48, R52). -/
theorem hostWrite_readOnly {off n : Nat} (h : off < 0x024) (hro : off ∉ [0x004, 0x008, 0x00C, 0x010]) (w : Word)
    (s : State) : hostWrite off n w s = .next (respondSlverr s) := by
  rcases hostWrite_cases off n w s with ⟨-, hx⟩ | ⟨htgt, -⟩ | ⟨-, -, hx⟩
  · rw [hx, writeRegister_readOnly hro]
  · have := bounds_of_target_dbuf htgt
    omega
  · exact hx

theorem valid_iff (s : State) : s.cfg.valid = true ↔ Valid s := by
  simp only [Cfg.valid, Bool.and_eq_true, decide_eq_true_eq]
  rfl

theorem writeStatus_phase (w : Word) (s : State) : (writeStatus w s).status.phase = s.status.phase := by
  unfold writeStatus
  split_ifs <;> rfl

/-- Taking a word does not move PHASE (R69, R123). -/
theorem take_phase (i : Instr) (s : State) : (take i s).status.phase = s.status.phase := by
  rcases take_cases i s with ⟨-, -, h⟩ | ⟨-, -, h⟩ | ⟨-, -, h⟩ <;> rw [h] <;> rfl

/-! ### The geometry of CFG -/

/-- The bounds of the block table (R84, R85): what the fields of GEOM0 to GEOM2 and the buffers can hold. -/
structure BlockRow.Bounded (b : BlockRow) : Prop where
  k  : b.k < 2 ^ 12
  e  : b.e < 2 ^ 5
  n  : b.n < 2 ^ 7
  n1 : b.n1 < 2 ^ 7
  k1 : b.k1 < 2 ^ 7
  n2 : b.n2 < 2 ^ 7
  k2 : b.k2 < 2 ^ 7
  ec : b.n * b.e ≤ Config.bufSize

theorem blockRow_bounded_iff (b : BlockRow) : b.Bounded ↔
    b.k < 2 ^ 12 ∧ b.e < 2 ^ 5 ∧ b.n < 2 ^ 7 ∧ b.n1 < 2 ^ 7 ∧ b.k1 < 2 ^ 7 ∧ b.n2 < 2 ^ 7 ∧ b.k2 < 2 ^ 7 ∧
      b.n * b.e ≤ Config.bufSize :=
  ⟨fun ⟨k, e, n, n1, k1, n2, k2, ec⟩ => ⟨k, e, n, n1, k1, n2, k2, ec⟩,
   fun ⟨k, e, n, n1, k1, n2, k2, ec⟩ => ⟨k, e, n, n1, k1, n2, k2, ec⟩⟩

theorem blockRow_bounded : ∀ v ≤ 40, ∀ l < 4, (blockRow v l).Bounded := by
  simp only [blockRow_bounded_iff]
  decide +kernel

theorem totalOf_lt : ∀ v ≤ 40, totalOf v < 2 ^ 12 := by decide +kernel

theorem remOf_lt (v : Nat) : remOf v < 2 ^ 3 := Nat.mod_lt _ (by decide)

theorem State.version_le {s : State} (h : s.cfg.valid = true) : s.version ≤ 40 := ((valid_iff s).mp h).2

theorem State.side_le {s : State} (h : s.cfg.valid = true) : s.side ≤ Config.sideMax := by
  have := State.version_le h
  simp only [State.side, sideOf, Config.sideMax]
  omega

theorem State.row_bounded {s : State} (h : s.cfg.valid = true) : s.row.Bounded :=
  blockRow_bounded _ (State.version_le h) _ s.cfg.ecl.isLt

theorem State.total_lt {s : State} (h : s.cfg.valid = true) : s.total < 2 ^ 12 :=
  totalOf_lt _ (State.version_le h)

/-- The fields of GEOM0 under a valid CFG (R28). -/
theorem geom0_fields {s : State} (h : s.cfg.valid = true) :
    (s.geom0.extractLsb' 0 8).toNat = s.side ∧ (s.geom0.extractLsb' 8 12).toNat = s.row.k ∧
    s.geom0.extractLsb' 20 12 = 0 := by
  have hside : s.side < 2 ^ 8 := lt_of_le_of_lt (State.side_le h) (by decide)
  have hrow := State.row_bounded h
  rw [State.geom0, if_pos h]
  refine ⟨?_, ?_, ?_⟩ <;>
    simp (disch := omega) only [BitVec.extractLsb'_append_eq_of_le, BitVec.extractLsb'_append_eq_of_add_le,
      Nat.reduceSub, BitVec.extractLsb'_eq_self, BitVec.toNat_ofNat, Nat.mod_eq_of_lt hside, Nat.mod_eq_of_lt hrow.k,
      BitVec.ofNat_eq_ofNat]

/-- The fields of GEOM1 under a valid CFG (R29). -/
theorem geom1_fields {s : State} (h : s.cfg.valid = true) :
    (s.geom1.extractLsb' 0 12).toNat = s.total ∧ (s.geom1.extractLsb' 12 5).toNat = s.row.e ∧
    (s.geom1.extractLsb' 17 7).toNat = s.row.n ∧ (s.geom1.extractLsb' 24 3).toNat = remOf s.version ∧
    s.geom1.extractLsb' 27 5 = 0 := by
  have hrow := State.row_bounded h
  rw [State.geom1, if_pos h]
  refine ⟨?_, ?_, ?_, ?_, ?_⟩ <;>
    simp (disch := omega) only [BitVec.extractLsb'_append_eq_of_le, BitVec.extractLsb'_append_eq_of_add_le,
      Nat.reduceSub, BitVec.extractLsb'_eq_self, BitVec.toNat_ofNat, Nat.mod_eq_of_lt hrow.e, Nat.mod_eq_of_lt hrow.n,
      Nat.mod_eq_of_lt (State.total_lt h), Nat.mod_eq_of_lt (remOf_lt _), BitVec.ofNat_eq_ofNat]

/-- The fields and reserved bits of GEOM2 under a valid CFG (R30). -/
theorem geom2_fields {s : State} (h : s.cfg.valid = true) :
    (s.geom2.extractLsb' 0 7).toNat = s.row.n1 ∧ (s.geom2.extractLsb' 8 7).toNat = s.row.k1 ∧
    (s.geom2.extractLsb' 16 7).toNat = s.row.n2 ∧ (s.geom2.extractLsb' 24 7).toNat = s.row.k2 ∧
    ∀ i ∈ [7, 15, 23, 31], s.geom2.getLsbD i = false := by
  have hrow := State.row_bounded h
  rw [State.geom2, if_pos h]
  refine ⟨?_, ?_, ?_, ?_, ?_⟩
  case refine_5 =>
    simp only [List.forall_mem_cons, BitVec.getLsbD_append]
    simp
  all_goals
    simp (disch := omega) only [BitVec.extractLsb'_append_eq_of_le, BitVec.extractLsb'_append_eq_of_add_le,
      Nat.reduceSub, BitVec.extractLsb'_eq_self, BitVec.toNat_ofNat, Nat.mod_eq_of_lt hrow.n1, Nat.mod_eq_of_lt hrow.k1,
      Nat.mod_eq_of_lt hrow.n2, Nat.mod_eq_of_lt hrow.k2]

/-- While CFG is not valid the three read 0 (R28 to R30). -/
theorem geom_invalid {s : State} (h : ¬ s.cfg.valid = true) : s.geom0 = 0 ∧ s.geom1 = 0 ∧ s.geom2 = 0 :=
  ⟨if_neg h, if_neg h, if_neg h⟩

end Sys2Proof.Machine
end
section
/-! PROOFS. The register statements of 10_state.md. -/

namespace Sys2Proof.Proofs

open Sys2Proof.Machine Sys2Proof.Claims

/-- Settles O5: BUSY and CUR_OP make the engine's opportunity the completion of that command. -/
theorem stepCompletesTheRunningCommand : Obligations.StepCompletesTheRunningCommand := by
  intro s i hnext hb hi hop
  have hrun : s.running = some i := running_eq_some.mpr ⟨hi, hop⟩
  exact (step_engineNext hnext).trans (engineStep_running (s := s.setScript (restOf s)) hb hrun)

/-- Settles O35: no state refuses the write, and the stored bits read back by `ienWord_ienOfWord`. -/
theorem ienWriteChangesTwoBits : Obligations.IenWriteChangesTwoBits := by
  refine ⟨rfl, fun s w rest hs => ?_⟩
  have hstep := (step_writeRegister hs (by decide) (by decide)).trans (writeRegister_ien w _)
  refine ⟨_, hstep, rfl, ienWord_ienOfWord w, ?_⟩
  rw [hostReadData_regs (by decide) (by decide)]
  exact congrArg some (ienWord_ienOfWord w)

/-- Settles O36: bit 1 and bit 2 of the word each decide on their own fields. -/
theorem statusWriteClearsByBit : Obligations.StatusWriteClearsByBit := by
  intro s w rest hs
  have hstep := (step_writeRegister hs (by decide) (by decide)).trans (writeRegister_status w _)
  rw [hstep, writeStatus]
  cases w.getLsbD 1 <;> cases w.getLsbD 2 <;> rfl

/-- Settles O34: BUSY = 0 lets the write through; the stored fields read back by `cfgWord_cfgOfWord`. -/
theorem cfgReadsBackUnderItsMask : Obligations.CfgReadsBackUnderItsMask := by
  intro s w rest hs hb
  have hstep := (step_writeRegister hs (by decide) (by decide)).trans
    (writeRegister_cfg (s := s.setScript rest) hb w)
  refine ⟨_, hstep, rfl, cfgWord_cfgOfWord w, ?_⟩
  rw [hostReadData_regs (by decide) (by decide)]
  exact congrArg some (cfgWord_cfgOfWord w)

/-- Settles O38: STATUS bit 3 by `statusWord_flags`. -/
theorem irqIsTheOrOfEnabledFlags : Obligations.IrqIsTheOrOfEnabledFlags := by
  refine ⟨fun s => ?_, rfl⟩
  obtain ⟨-, -, -, hirq, -, -⟩ := statusWord_flags s
  exact ⟨by simp [State.irq], hirq⟩

/-- Settles O37: each register by the lemma about its word. -/
theorem statusAndErrinfoFields : Obligations.StatusAndErrinfoFields := by
  intro s
  obtain ⟨hbusy, hdone, herr, hirq, h11, hhigh⟩ := statusWord_flags s
  obtain ⟨hcode, hmask, hphase⟩ := statusWord_codes s
  obtain ⟨hversion, h67, hecl, hcfg⟩ := cfgWord_fields s.cfg
  obtain ⟨hdoneIe, herrIe, hien⟩ := ienWord_fields s.ien
  obtain ⟨hopc, hat, hrun, hinfo⟩ := errinfoWord_fields s.errinfo
  have hread : ∀ off ∈ [0x000, 0x004, 0x008, 0x00C, 0x010, 0x014, 0x018, 0x01C, 0x020],
      hostReadData off 4 s = some (s.registerWord off) := by
    intro off hoff
    have hreg : off < 0x024 ∧ off % 4 = 0 := by revert off; decide
    exact hostReadData_regs hreg.1 hreg.2 s
  exact ⟨hread, rfl, rfl, hversion, h67, hecl, hcfg, hbusy, hdone, herr, hirq, hcode, hmask, h11, hphase, hhigh,
    hdoneIe, herrIe, hien, hopc, hat, hrun, hinfo⟩

/-- Settles O40: the bounds of the block table make every field fit. -/
theorem geometryRegisters : Obligations.GeometryRegisters := by
  refine ⟨fun s hv => ?_, fun s hv off hoff => ?_, fun s w off hoff => ?_⟩
  · have hvalid := (valid_iff s).mpr hv
    obtain ⟨hside, hk, h20⟩ := geom0_fields hvalid
    obtain ⟨htotal, he, hn, hrem, h27⟩ := geom1_fields hvalid
    exact ⟨hside, hk, h20, htotal, he, hn, hrem, h27, geom2_fields hvalid⟩
  · obtain ⟨h0, h1, h2⟩ := geom_invalid (mt (valid_iff s).mp hv)
    simp only [List.mem_cons, List.not_mem_nil, or_false] at hoff
    rcases hoff with rfl | rfl | rfl
    exacts [h0, h1, h2]
  · have hgeom : off < 0x024 ∧ off % 4 = 0 ∧ off ∉ [0x004, 0x008, 0x00C, 0x010] := by revert off; decide
    obtain ⟨hlt, h4, hro⟩ := hgeom
    exact ⟨hostReadData_regs hlt h4 s, fun n _ => hostWrite_readOnly hlt hro w s⟩

/-- Settles O42: the word at each offset by `penaltyWord_pen` and `penaltyWord_pentot`. -/
theorem penaltyRegistersAreReadAtTheirOffsets : Obligations.PenaltyRegistersAreReadAtTheirOffsets := by
  intro s m hb
  have hm := m.isLt
  have hpen {off : Nat} (j : Nat) (hj : j < 4) (hoff : off = 0x100 + 16 * m.val + 4 * j) :
      hostReadData off 4 s = some ((s.pen[m]).get j) := by
    rw [hoff, hostReadData_pens (by omega) (by omega) (by omega) hb, penaltyWord_pen s m hj]
  refine ⟨hpen 0 (by decide) (by omega), hpen 1 (by decide) (by omega), hpen 2 (by decide) (by omega),
    hpen 3 (by decide) (by omega), ?_⟩
  rw [hostReadData_pens (by omega) (by omega) (by omega) hb, penaltyWord_pentot]

/-- Settles O27: of the effects of a step only these six touch PHASE. -/
theorem onlyTheseEventsChangePhase : Obligations.OnlyTheseEventsChangePhase := by
  intro s t hstep hne
  cases step_effect hstep with
  | completed i hnext hb hr => exact .inl ⟨hnext, hb⟩
  | hardReset rest hs => exact .inr (.inl ⟨rest, hs⟩)
  | softReset rest hs => exact .inr (.inr (.inl ⟨rest, hs⟩))
  | cfg w rest hs hb => exact .inr (.inr (.inr ⟨_, rest, hs, rfl, .inl rfl⟩))
  | dbuf h rest hs hw hlo hhi hb =>
    have hsize : 0 < accessSize h := by cases h <;> exact Nat.zero_lt_succ _
    exact .inr (.inr (.inr ⟨h, rest, hs, hw, .inr ⟨hlo, by omega⟩⟩))
  | idle hnext hb => exact absurd rfl hne
  | read h rest hs hr => exact absurd rfl hne
  | refused h rest hs hw => exact absurd rfl hne
  | ien w rest hs => exact absurd rfl hne
  | status w rest hs => exact absurd (writeStatus_phase w _) hne
  | illegal w e rest hs hb he hd => exact absurd rfl hne
  | taken i rest hs hi hb he => exact absurd (take_phase i _) hne

end Sys2Proof.Proofs
end

section
/-! PROOFS. What the completion of a command leaves in the state: its outputs only, in the regions of its
operands. -/

namespace Sys2Proof.Machine

open Sys2Proof.Claims

/-! ### The length of the EC codewords -/

theorem mulLinear_length (g : List Byte) (root : Byte) : (mulLinear g root).length = g.length + 1 := by
  simp [mulLinear]

theorem genpoly_length (e : Nat) : (genpoly e).length = e + 1 := by
  unfold genpoly
  induction e with
  | zero => rfl
  | succ e ih => rw [List.range_succ, List.foldl_concat, mulLinear_length, ih]

theorem remRound_length {taps rem : List Byte} (h : rem.length = taps.length) (d : Byte) :
    (remRound taps rem d).length = taps.length := by
  cases rem with
  | nil => simp [remRound, ← h]
  | cons r rem => simp_all [remRound]

/-- The remainder has E codewords (R87). -/
theorem rsRemainder_length (d : List Byte) (e : Nat) : (rsRemainder d e).length = e := by
  have htaps : (genpoly e).tail.length = e := by simp [genpoly_length]
  suffices h : ∀ rem : List Byte, rem.length = e → (d.foldl (remRound (genpoly e).tail) rem).length = e from
    h _ List.length_replicate
  induction d with
  | nil => exact fun rem h => h
  | cons x d ih =>
    intro rem h
    exact ih _ ((remRound_length (h.trans htaps.symm) x).trans htaps)

theorem splitBlocks_length (ks : List Nat) (d : List Byte) : (splitBlocks ks d).length = ks.length := by
  induction ks generalizing d with
  | nil => rfl
  | cons k ks ih => simp [splitBlocks, ih]

/-- RS_ENCODE computes N·E codewords (R89). -/
theorem ecOfBlocks_length (row : BlockRow) (data : List Byte) : (ecOfBlocks row data).length = row.n * row.e := by
  simp [ecOfBlocks, List.length_flatMap, rsRemainder_length, splitBlocks_length, BlockRow.lengths, BlockRow.n]

/-! ### Only outputs change -/

/-- From `s` to `t` only outputs of a completion step changed: MASK, the scores, the draws, and the storage inside
ECBUF[0 .. N·E−1], CWBUF[0 .. T−1] and the symbol; canonical storage and summed scores stay so. -/
structure OutputsOnly (s t : State) : Prop where
  cfg      : t.cfg = s.cfg
  status   : t.status = { s.status with mask := t.status.mask }
  ien      : t.ien = s.ien
  errinfo  : t.errinfo = s.errinfo
  curOp    : t.curOp = s.curOp
  powerOns : t.powerOns = s.powerOns
  script   : t.script = s.script
  resp     : t.resp = s.resp
  wf       : s.mem.wf = true → t.mem.wf = true
  scores   : s.ScoresOk → t.ScoresOk
  frame    : ∀ a, ¬ InEc s a → ¬ InCw s a → ¬ InSymbol s a → t.readRam a = s.readRam a

theorem OutputsOnly.refl (s : State) : OutputsOnly s s :=
  ⟨rfl, rfl, rfl, rfl, rfl, rfl, rfl, rfl, id, id, fun _ _ _ _ => rfl⟩

theorem OutputsOnly.trans {s t u : State} (h : OutputsOnly s t) (h' : OutputsOnly t u) : OutputsOnly s u where
  cfg := h'.cfg.trans h.cfg
  status := by rw [h'.status, h.status]
  ien := h'.ien.trans h.ien
  errinfo := h'.errinfo.trans h.errinfo
  curOp := h'.curOp.trans h.curOp
  powerOns := h'.powerOns.trans h.powerOns
  script := h'.script.trans h.script
  resp := h'.resp.trans h.resp
  wf := h'.wf ∘ h.wf
  scores := h'.scores ∘ h.scores
  frame := by
    intro a hec hcw hsym
    refine (h'.frame a ?_ ?_ ?_).trans (h.frame a hec hcw hsym)
    · simpa only [InEc, State.row, State.version, h.cfg] using hec
    · simpa only [InCw, State.total, State.version, h.cfg] using hcw
    · simpa only [InSymbol, State.side, State.version, h.cfg] using hsym

theorem OutputsOnly.setMem {s : State} {m : Memory} (hwf : s.mem.wf = true → m.wf = true)
    (hframe : ∀ a, ¬ InEc s a → ¬ InCw s a → ¬ InSymbol s a → (s.setMem m).readRam a = s.readRam a) :
    OutputsOnly s (s.setMem m) :=
  ⟨rfl, rfl, rfl, rfl, rfl, rfl, rfl, rfl, hwf, id, hframe⟩

theorem OutputsOnly.setDraws (s : State) (n : Nat) : OutputsOnly s (s.setDraws n) :=
  ⟨rfl, rfl, rfl, rfl, rfl, rfl, rfl, rfl, id, id, fun _ _ _ _ => rfl⟩

theorem OutputsOnly.setMask (s : State) (m : BitVec 3) : OutputsOnly s (s.setStatus { s.status with mask := m }) :=
  ⟨rfl, rfl, rfl, rfl, rfl, rfl, rfl, rfl, id, id, fun _ _ _ _ => rfl⟩

/-- PENTOT as SCORE writes it is the sum of PEN (R32, R119). -/
theorem totalsOf_get (p : Vector Penalties 8) (m : Fin 8) : (totalsOf p)[m] = (p[m]).total := by
  fin_cases m <;> rfl

theorem OutputsOnly.setScores (s : State) (p : Vector Penalties 8) : OutputsOnly s (s.setScores p (totalsOf p)) :=
  ⟨rfl, rfl, rfl, rfl, rfl, rfl, rfl, rfl, id, fun _ m => totalsOf_get p m, fun _ _ _ _ => rfl⟩

section
variable {s : State} (hv : s.cfg.valid = true)
include hv

theorem OutputsOnly.storeEc {bs : List Byte} (h : bs.length ≤ s.row.n * s.row.e) :
    OutputsOnly s (s.storeBlock Config.ecbufBase bs) := by
  have hec := (State.row_bounded hv).ec
  refine OutputsOnly.setMem (fun hwf => State.wf_storeBuffer hwf _ _ (by decide) ?_) fun a ha _ _ => ?_
  · simp only [Config.ecbufBase, Config.cwbufBase, Config.bufSize] at hec ⊢
    omega
  · refine (State.readRam_storeBlock s _ bs a).trans (if_neg fun hin => ha ?_)
    exact ⟨hin.1, lt_of_lt_of_le hin.2 (Nat.add_le_add_left h _)⟩

theorem OutputsOnly.storeCw {bs : List Byte} (h : bs.length ≤ s.total) :
    OutputsOnly s (s.storeBlock Config.cwbufBase bs) := by
  have htotal := State.total_lt hv
  refine OutputsOnly.setMem (fun hwf => State.wf_storeBuffer hwf _ _ (by decide) ?_) fun a _ ha _ => ?_
  · simp only [Config.cwbufBase, Config.bufSize]
    omega
  · refine (State.readRam_storeBlock s _ bs a).trans (if_neg fun hin => ha ?_)
    exact ⟨hin.1, lt_of_lt_of_le hin.2 (Nat.add_le_add_left h _)⟩

theorem OutputsOnly.storeSymbol {g : Grid} (h : g.Square s.side) : OutputsOnly s (s.storeGrid g) :=
  OutputsOnly.setMem (fun hwf => State.wf_storeGrid hwf h (State.side_le hv)) fun a _ _ ha =>
    (State.readRam_storeGrid s h ((State.side_le hv).trans (by decide)) a).2 ha

theorem OutputsOnly.scrambleEc (draw : Nat) : OutputsOnly s (scrambleEc draw (s.row.n * s.row.e) s) :=
  OutputsOnly.storeEc hv (freeBytes_length _ _ _).le

theorem OutputsOnly.scrambleCw (draw : Nat) : OutputsOnly s (scrambleCw draw s.total s) :=
  OutputsOnly.storeCw hv (freeBytes_length _ _ _).le

theorem OutputsOnly.scrambleMatrix (draw : Nat) : OutputsOnly s (scrambleMatrix draw s.side s) :=
  OutputsOnly.storeSymbol hv (square_freeGrid _ _)

end

/-! ### The bodies -/

/-- The state a body ends in meets `P`, whether it is done or raised INTERNAL. -/
def BodyResult.All (P : State → Prop) : BodyResult → Prop
  | .done t => P t
  | .internal _ t => P t

theorem BodyResult.andThen_outputs {s : State} {r : BodyResult} {body : State → BodyResult}
    (hr : r.All (OutputsOnly s)) (hv : s.cfg.valid = true)
    (hbody : ∀ t : State, t.cfg.valid = true → (body t).All (OutputsOnly t)) :
    (r.andThen body).All (OutputsOnly s) := by
  cases r with
  | internal opc t => exact hr
  | done t =>
    have ht := hbody t (by rw [hr.cfg]; exact hv)
    show (body t).All (OutputsOnly s)
    cases hb : body t <;> rw [hb] at ht <;> exact OutputsOnly.trans hr ht

theorem BodyResult.andThen_eq_done {r : BodyResult} {body : State → BodyResult} {u : State} :
    r.andThen body = .done u ↔ ∃ t, r = .done t ∧ body t = .done u := by
  cases r <;> simp [BodyResult.andThen]

theorem square_placedGrid (s : State) : (placedGrid s).Square s.side :=
  square_placeBits (s.square_loadGrid _) _ _

/-- The symbol FINALIZE would store (R120). -/
def finishedGrid (s : State) : Grid := finishGrid s.version s.cfg.ecl (selectMask s.pentot).val (s.loadGrid s.side)

theorem square_finishedGrid (s : State) : (finishedGrid s).Square s.side :=
  square_finishGrid (s.square_loadGrid _) _ _

theorem bodyScore_outputs (s : State) : (bodyScore s).All (OutputsOnly s) := OutputsOnly.setScores s _

section
variable {s : State} (hv : s.cfg.valid = true)
include hv

theorem bodyRsEncode_outputs : (bodyRsEncode s).All (OutputsOnly s) := by
  rcases bodyRsEncode_cases s with ⟨-, h⟩ | ⟨-, h⟩ <;> rw [h]
  · exact OutputsOnly.storeEc hv (ecOfBlocks_length _ _).le
  · exact (OutputsOnly.setDraws s (s.draws + 1)).trans
      (OutputsOnly.scrambleEc (s := s.setDraws (s.draws + 1)) hv s.draws)

theorem bodyInterleave_outputs : (bodyInterleave s).All (OutputsOnly s) := by
  rcases bodyInterleave_cases s with ⟨hlen, h⟩ | ⟨-, h⟩ <;> rw [h]
  · exact OutputsOnly.storeCw hv hlen.le
  · exact (OutputsOnly.setDraws s (s.draws + 1)).trans
      (OutputsOnly.scrambleCw (s := s.setDraws (s.draws + 1)) hv s.draws)

theorem bodyBuildFunc_outputs : (bodyBuildFunc s).All (OutputsOnly s) :=
  OutputsOnly.storeSymbol hv (square_funcGrid _)

theorem bodyPlace_outputs : (bodyPlace s).All (OutputsOnly s) := by
  rcases bodyPlace_cases s with ⟨-, -, h⟩ | ⟨-, h⟩ <;> rw [h]
  · exact OutputsOnly.storeSymbol hv (square_placedGrid s)
  · exact (OutputsOnly.setDraws s (s.draws + 1)).trans
      (OutputsOnly.scrambleMatrix (s := s.setDraws (s.draws + 1)) hv s.draws)

theorem bodyFinalize_outputs : (bodyFinalize s).All (OutputsOnly s) :=
  (OutputsOnly.storeSymbol hv (square_finishedGrid s)).trans (OutputsOnly.setMask (s.storeGrid (finishedGrid s)) _)

theorem bodyRun_outputs : (bodyRun s).All (OutputsOnly s) := by
  have hec := bodyRsEncode_outputs hv
  have hcw := BodyResult.andThen_outputs hec hv fun _ => bodyInterleave_outputs
  have hfunc := BodyResult.andThen_outputs hcw hv fun _ => bodyBuildFunc_outputs
  have hplace := BodyResult.andThen_outputs hfunc hv fun _ => bodyPlace_outputs
  have hscore := BodyResult.andThen_outputs hplace hv fun t _ => bodyScore_outputs t
  exact BodyResult.andThen_outputs hscore hv fun _ => bodyFinalize_outputs

end

/-- The body of a command changes only outputs (R18, R37 to R42). -/
theorem bodyOf_outputs {i : Instr} {s : State} (hv : needsCfg i = true → s.cfg.valid = true) :
    (bodyOf i s).All (OutputsOnly s) := by
  cases i with
  | nop | softReset => exact OutputsOnly.refl s
  | rsEncode => exact bodyRsEncode_outputs (hv rfl)
  | interleave => exact bodyInterleave_outputs (hv rfl)
  | buildFunc => exact bodyBuildFunc_outputs (hv rfl)
  | place => exact bodyPlace_outputs (hv rfl)
  | score => exact bodyScore_outputs s
  | finalize => exact bodyFinalize_outputs (hv rfl)
  | run => exact bodyRun_outputs (hv rfl)

/-- A completion step ends, with or without INTERNAL, in a state its body reached by changing only outputs. -/
theorem complete_outputs {i : Instr} {s : State} (hv : needsCfg i = true → s.cfg.valid = true) :
    ∃ t, OutputsOnly s t ∧ ((bodyOf i s = .done t ∧ complete i (bodyOf i) s = finish i t) ∨
      ∃ opc, complete i (bodyOf i) s = raiseInternal opc t) := by
  have hbody := bodyOf_outputs hv
  rcases complete_cases i (bodyOf i) s with ⟨t, ht, hx⟩ | ⟨opc, t, ht, hx⟩ <;> rw [ht] at hbody
  · exact ⟨t, hbody, .inl ⟨ht, hx⟩⟩
  · exact ⟨t, hbody, .inr ⟨opc, hx⟩⟩

/-- An abort changes only outputs of the command in CUR_OP (R140). -/
theorem abortOutputs_outputs {i : Instr} {s : State} (hr : s.running = some i)
    (hv : needsCfg i = true → s.cfg.valid = true) : OutputsOnly s (abortOutputs s) := by
  obtain ⟨-, hop⟩ := running_eq_some.mp hr
  rw [abortOutputs, hop, ofOpcode_opcode]
  cases i with
  | nop | softReset | score => exact OutputsOnly.refl s
  | rsEncode => exact OutputsOnly.scrambleEc (hv rfl) _
  | interleave => exact OutputsOnly.scrambleCw (hv rfl) _
  | buildFunc | place | finalize => exact OutputsOnly.scrambleMatrix (hv rfl) _
  | run =>
    have hec := OutputsOnly.scrambleEc (hv rfl) s.draws
    exact (hec.trans (OutputsOnly.scrambleCw (s := scrambleEc _ _ s) (hv rfl) _)).trans
      (OutputsOnly.scrambleMatrix (s := scrambleCw _ _ (scrambleEc _ _ s)) (hv rfl) _)

end Sys2Proof.Machine
end
section
namespace Sys2Proof.Proofs

open Sys2Proof.Machine Sys2Proof.Claims

/-- Settles O26: a body changes only outputs, and ending it writes only STATUS and ERRINFO. -/
theorem completionKeepsInputs : Obligations.CompletionKeepsInputs := by
  intro s t i hb hr hvalid hexec
  obtain ⟨hi, -⟩ := running_eq_some.mp hr
  have hneeds : needsCfg i = true → s.cfg.valid = true := fun hn =>
    (valid_iff s).mpr (hvalid (by rintro rfl; cases hn))
  obtain ⟨u, hu, ⟨-, hx⟩ | ⟨opc, hx⟩⟩ := complete_outputs hneeds <;>
    rw [exec_running hb hr, hx] at hexec <;> cases hexec
  all_goals exact ⟨hu.cfg, hu.ien, hu.script, hu.resp, hu.powerOns, hu.frame⟩

end Sys2Proof.Proofs
end

section
/-! PROOFS. The symbol through the phases (R43): what BUILD_FUNC draws, that PLACE sets every cell, and that SCORE and
FINALIZE keep every plane but DARK. -/

namespace Sys2Proof.Machine

open Sys2Proof.Claims

/-! ### Cells through grid updates -/

/-- Updating one cell of a grid leaves each position its cell or the changed one. -/
theorem Grid.get_update_or (g : Grid) (r c : Nat) (f : Cell → Cell) (r' c' : Nat) :
    (g.update r c f).get r' c' = g.get r' c' ∨ (g.update r c f).get r' c' = f (g.get r' c') := by
  simp only [Grid.update, Grid.get, List.getD, List.getElem?_modify]
  by_cases hr : r = r'
  · cases g[r']? with
    | none => simp [hr]
    | some row =>
      by_cases hc : c = c'
      · cases hcell : row[c']? <;> simp [hr, hc, hcell]
      · simp [hr, hc]
  · simp [hr]

/-- A property of the cell at a position that every change of the grid keeps there holds after all of them. -/
theorem Grid.get_foldl {α : Type} {P : Cell → Prop} {r c : Nat} (f : Grid → α → Grid) (l : List α)
    (hf : ∀ a ∈ l, ∀ g : Grid, P (g.get r c) → P ((f g a).get r c)) {g : Grid} (h : P (g.get r c)) :
    P ((l.foldl f g).get r c) := by
  induction l generalizing g with
  | nil => exact h
  | cons a l ih => exact ih (fun b hb => hf b (by simp [hb])) (hf a (by simp) g h)

theorem Grid.get_update_of {P : Cell → Prop} {f : Cell → Cell} (hf : ∀ x, P x → P (f x)) {g : Grid} {r' c' : Nat}
    (h : P (g.get r' c')) (r c : Nat) : P ((g.update r c f).get r' c') := by
  rcases Grid.get_update_or g r c f r' c' with hx | hx <;> rw [hx]
  exacts [h, hf _ h]

/-- Every cell of a grid with every cell set is set. -/
theorem Grid.set_of_allSet {n : Nat} {g : Grid} (h : g.Square n) (hall : g.allSet = true) {r c : Nat} (hr : r < n)
    (hc : c < n) : (g.get r c).set = true := by
  have hlen : r < g.length := by rw [h.1]; exact hr
  have hrow : c < (g[r]).length := by rw [h.2 _ (List.getElem_mem hlen)]; exact hc
  have hset := List.all_eq_true.mp (List.all_eq_true.mp hall _ (List.getElem_mem hlen)) _ (List.getElem_mem hrow)
  simpa [Grid.get, List.getD, hlen, hrow] using hset

/-! ### What the commands write -/

/-- What R43 says of the planes of one cell from FUNC_DONE on. -/
def Cell.PlanesOk (x : Cell) : Prop := (x.rsv = true → x.func = true) ∧ (x.set = false → x.func = false)

/-- A cell that is a function module whatever else it is. -/
def Cell.IsFn (x : Cell) : Prop := x.set = true ∧ x.func = true

theorem Cell.isFn_fn (dark rsv : Bool) : (Cell.fn dark rsv).IsFn := ⟨rfl, rfl⟩

theorem Cell.IsFn.planesOk {x : Cell} (h : x.IsFn) : x.PlanesOk :=
  ⟨fun _ => h.2, fun hs => absurd h.1 (by simp [hs])⟩

theorem squareDraws_isFn {k : Nat} {dark : Nat → Bool} {cr cc : Int} {d : Draw}
    (h : d ∈ squareDraws k dark cr cc) : d.cell.IsFn := by
  obtain ⟨dr, -, hd⟩ := List.mem_flatMap.mp h
  obtain ⟨dc, -, rfl⟩ := List.mem_map.mp hd
  exact Cell.isFn_fn _ _

theorem timingDraws_isFn {n : Nat} {d : Draw} (h : d ∈ timingDraws n) : d.cell.IsFn := by
  obtain ⟨i, -, hd⟩ := List.mem_flatMap.mp h
  rcases List.mem_pair.mp hd with rfl | rfl <;> exact Cell.isFn_fn _ _

theorem finderDraws_isFn {n : Nat} {d : Draw} (h : d ∈ finderDraws n) : d.cell.IsFn := by
  simp only [finderDraws, List.mem_append] at h
  rcases h with (h | h) | h <;> exact squareDraws_isFn h

theorem alignDraws_isFn {v : Nat} {d : Draw} (h : d ∈ alignDraws v) : d.cell.IsFn := by
  obtain ⟨p, -, hd⟩ := List.mem_flatMap.mp h
  exact squareDraws_isFn hd

/-- BUILD_FUNC draws only function modules (R91, R99). -/
theorem funcDraws_isFn {v : Nat} {d : Draw} (h : d ∈ funcDraws v) : d.cell.IsFn := by
  simp only [funcDraws, List.mem_append, List.mem_map, List.mem_singleton] at h
  rcases h with ((((h | h) | h) | ⟨p, -, rfl⟩) | ⟨p, -, rfl⟩) | rfl
  · exact timingDraws_isFn h
  · exact finderDraws_isFn h
  · exact alignDraws_isFn h
  all_goals exact Cell.isFn_fn _ _

/-- Every cell BUILD_FUNC leaves is as R43 says. -/
theorem funcGrid_planesOk (v : Nat) {r c : Nat} (hr : r < sideOf v) (hc : c < sideOf v) :
    ((funcGrid v).get r c).PlanesOk := by
  refine Grid.get_foldl _ _ (fun d hd g h => ?_) ?_
  · unfold drawOne
    split_ifs
    · exact Grid.get_update_of (fun _ _ => (funcDraws_isFn hd).planesOk) h _ _
    · exact h
  · rw [Grid.get_tabulate _ hr hc]
    exact ⟨fun h => h, fun _ => rfl⟩

/-- PLACE reserves no cell: where RSV implied FUNC it still does (R104). -/
theorem placedGrid_rsv {s : State} {r c : Nat} (hr : r < s.side) (hc : c < s.side)
    (h : (s.readCell r c).rsv = true → (s.readCell r c).func = true) :
    ((placedGrid s).get r c).rsv = true → ((placedGrid s).get r c).func = true := by
  refine Grid.get_foldl (P := fun x => x.rsv = true → x.func = true) _ _ (fun q _ g hg => ?_) ?_
  · exact Grid.get_update_of (P := fun x => x.rsv = true → x.func = true) (fun _ _ hrsv => by cases hrsv) hg _ _
  · rw [State.get_loadGrid s hr hc]
    exact h

/-- FINALIZE keeps every plane but DARK (R120). -/
theorem finishedGrid_planes {s : State} {r c : Nat} (hr : r < s.side) (hc : c < s.side) :
    ∃ d, (finishedGrid s).get r c = { s.readCell r c with dark := d } := by
  have hinfo {w : Nat} (word : BitVec w) (cells : List (Nat × Nat × Nat)) {g : Grid}
      (h : ∃ d, g.get r c = { s.readCell r c with dark := d }) :
      ∃ d, (writeInfo word cells g).get r c = { s.readCell r c with dark := d } :=
    Grid.get_foldl (P := fun x => ∃ d, x = { s.readCell r c with dark := d }) _ _
      (fun p _ g hg => Grid.get_update_of (P := fun x => ∃ d, x = { s.readCell r c with dark := d })
        (by rintro x ⟨d, rfl⟩; exact ⟨_, rfl⟩) hg _ _) h
  refine hinfo _ _ (hinfo _ _ ?_)
  rw [get_maskGrid (s.square_loadGrid _) _ hr hc, State.get_loadGrid s hr hc]
  exact ⟨_, rfl⟩

/-! ### The symbol through the phases -/

@[simp] theorem State.storeGrid_version (s : State) (g : Grid) : (s.storeGrid g).version = s.version := rfl

@[simp] theorem State.storeGrid_side (s : State) (g : Grid) : (s.storeGrid g).side = s.side := rfl

/-- Every cell of the symbol is as R43 says from FUNC_DONE on. -/
def State.PlanesOk (s : State) : Prop := ∀ r c, r < s.side → c < s.side → (s.readCell r c).PlanesOk

/-- Every cell of the symbol is set. -/
def State.Filled (s : State) : Prop := ∀ r c, r < s.side → c < s.side → (s.readCell r c).set = true

/-- The symbol is as BUILD_FUNC drew it. -/
def State.Drawn (s : State) : Prop :=
  ∀ r c, r < s.side → c < s.side → s.readCell r c = (funcGrid s.version).get r c

/-- The parts of the invariant about the matrix, for a phase that the state need not hold yet. -/
structure SymbolOk (p : Phase) (s : State) : Prop where
  planes : 3 ≤ p.code → s.PlanesOk
  filled : 4 ≤ p.code → s.Filled
  drawn  : p = .funcDone → s.Drawn

theorem symbolOk_iff (s : State) : SymbolOk s.status.phase s ↔ s.MatrixOk ∧ s.FreshOk :=
  ⟨fun ⟨hplanes, hfilled, hdrawn⟩ => ⟨⟨hplanes, hfilled⟩, hdrawn⟩,
   fun ⟨⟨hplanes, hfilled⟩, hdrawn⟩ => ⟨hplanes, hfilled, hdrawn⟩⟩

/-- Before FUNC_DONE nothing is said of the symbol. -/
theorem SymbolOk.of_early {p : Phase} (hp : p.code < 3) (s : State) : SymbolOk p s where
  planes h := absurd h (by omega)
  filled h := absurd h (by omega)
  drawn h := absurd hp (by subst h; decide)

theorem SymbolOk.of_filled {p : Phase} (hp : p ≠ .funcDone) {s : State} (hplanes : s.PlanesOk) (hfilled : s.Filled) :
    SymbolOk p s :=
  ⟨fun _ => hplanes, fun _ => hfilled, fun h => absurd h hp⟩

theorem State.Drawn.planesOk {s : State} (h : s.Drawn) : s.PlanesOk := fun r c hr hc => by
  rw [h r c hr hc]
  exact funcGrid_planesOk _ hr hc

theorem State.PlanesOk.setStatus {s : State} (h : s.PlanesOk) (u : Status) : (s.setStatus u).PlanesOk := h

theorem State.Filled.setStatus {s : State} (h : s.Filled) (u : Status) : (s.setStatus u).Filled := h

section
variable {s t : State} (hv : s.cfg.valid = true)
include hv

/-- A cell of the symbol after storing it under a valid CFG. -/
theorem State.readCell_storeSymbol {g : Grid} (h : g.Square s.side) {r c : Nat} (hr : r < s.side) (hc : c < s.side) :
    (s.storeGrid g).readCell r c = g.get r c :=
  State.readCell_storeGrid s h ((State.side_le hv).trans (by decide)) hr hc

theorem State.planesOk_storeGrid {g : Grid} (h : g.Square s.side) :
    (s.storeGrid g).PlanesOk ↔ ∀ r c, r < s.side → c < s.side → (g.get r c).PlanesOk :=
  forall₄_congr fun r c hr hc => by rw [State.readCell_storeSymbol hv h hr hc]

theorem State.filled_storeGrid {g : Grid} (h : g.Square s.side) :
    (s.storeGrid g).Filled ↔ ∀ r c, r < s.side → c < s.side → (g.get r c).set = true :=
  forall₄_congr fun r c hr hc => by rw [State.readCell_storeSymbol hv h hr hc]

theorem State.drawn_storeGrid : (s.storeGrid (funcGrid s.version)).Drawn := by
  simp only [State.Drawn, State.storeGrid_side, State.storeGrid_version]
  exact fun r c hr hc => State.readCell_storeSymbol hv (square_funcGrid s.version) hr hc

theorem drawn_of_bodyBuildFunc (h : bodyBuildFunc s = .done t) : t.Drawn := by
  obtain rfl : s.storeGrid (funcGrid s.version) = t := BodyResult.done.inj h
  exact State.drawn_storeGrid hv

theorem filled_of_bodyPlace (hs : s.PlanesOk) (h : bodyPlace s = .done t) : t.PlanesOk ∧ t.Filled := by
  rcases bodyPlace_cases s with ⟨-, hall, hx⟩ | ⟨-, hx⟩ <;> rw [hx] at h <;> cases h
  have hset {r c : Nat} (hr : r < s.side) (hc : c < s.side) : ((placedGrid s).get r c).set = true :=
    Grid.set_of_allSet (square_placedGrid s) hall hr hc
  rw [State.planesOk_storeGrid hv (square_placedGrid s), State.filled_storeGrid hv (square_placedGrid s)]
  refine ⟨fun r c hr hc => ⟨placedGrid_rsv hr hc (hs r c hr hc).1, fun h => ?_⟩, fun r c hr hc => hset hr hc⟩
  exact absurd (hset hr hc) (by simp [h])

theorem filled_of_bodyFinalize (hplanes : s.PlanesOk) (hfilled : s.Filled) (h : bodyFinalize s = .done t) :
    t.PlanesOk ∧ t.Filled := by
  cases h
  suffices hgrid : (s.storeGrid (finishedGrid s)).PlanesOk ∧ (s.storeGrid (finishedGrid s)).Filled from
    ⟨hgrid.1.setStatus _, hgrid.2.setStatus _⟩
  rw [State.planesOk_storeGrid hv (square_finishedGrid s), State.filled_storeGrid hv (square_finishedGrid s)]
  refine ⟨fun r c hr hc => ?_, fun r c hr hc => ?_⟩ <;> obtain ⟨d, hd⟩ := finishedGrid_planes hr hc <;> rw [hd]
  · exact hplanes r c hr hc
  · exact hfilled r c hr hc

theorem BodyResult.valid_of_done {r : BodyResult} (hr : r.All (OutputsOnly s)) (h : r = .done t) :
    t.cfg.valid = true := by
  subst h
  rw [OutputsOnly.cfg hr]
  exact hv

theorem filled_of_bodyRun (h : bodyRun s = .done t) : t.PlanesOk ∧ t.Filled := by
  simp only [bodyRun, BodyResult.andThen_eq_done] at h
  obtain ⟨s5, ⟨s4, ⟨s3, ⟨s2, ⟨s1, h1, h2⟩, h3⟩, h4⟩, h5⟩, h6⟩ := h
  have hv1 := BodyResult.valid_of_done hv (bodyRsEncode_outputs hv) h1
  have hv2 := BodyResult.valid_of_done hv1 (bodyInterleave_outputs hv1) h2
  have hv3 := BodyResult.valid_of_done hv2 (bodyBuildFunc_outputs hv2) h3
  have hv4 := BodyResult.valid_of_done hv3 (bodyPlace_outputs hv3) h4
  have hv5 := BodyResult.valid_of_done hv4 (bodyScore_outputs s4) h5
  obtain ⟨hplanes, hfilled⟩ := filled_of_bodyPlace hv3 (drawn_of_bodyBuildFunc hv2 h3).planesOk h4
  cases h5
  exact filled_of_bodyFinalize hv5 hplanes hfilled h6

end

/-- A command accepted in one of its phases leaves the symbol as its next phase promises (R43, R64). -/
theorem bodyOf_symbolOk {i : Instr} {s t : State} (hv : needsCfg i = true → s.cfg.valid = true)
    (hp : phaseAllows i s.status.phase = true) (hs : SymbolOk s.status.phase s) (h : bodyOf i s = .done t) :
    SymbolOk (phaseAfter i s.status.phase) t := by
  cases i with
  | nop =>
    cases h
    exact hs
  | softReset => exact SymbolOk.of_early (p := .idle) (by decide) t
  | rsEncode => exact SymbolOk.of_early (p := .ecDone) (by decide) t
  | interleave => exact SymbolOk.of_early (p := .ilDone) (by decide) t
  | buildFunc =>
    have hdrawn := drawn_of_bodyBuildFunc (hv rfl) h
    exact ⟨fun _ => hdrawn.planesOk, fun h4 => absurd h4 (show ¬ 4 ≤ Phase.funcDone.code by decide), fun _ => hdrawn⟩
  | place =>
    have hphase : s.status.phase = .funcDone := by simpa [phaseAllows] using hp
    obtain ⟨hplanes, hfilled⟩ := filled_of_bodyPlace (hv rfl) (hs.planes (by rw [hphase]; decide)) h
    exact SymbolOk.of_filled (p := .placed) (by decide) hplanes hfilled
  | score =>
    have hphase : 4 ≤ s.status.phase.code := by
      have : s.status.phase = .placed ∨ s.status.phase = .scored := by simpa [phaseAllows] using hp
      rcases this with h | h <;> rw [h] <;> decide
    cases h
    exact SymbolOk.of_filled (p := .scored) (by decide) (hs.planes (by omega)) (hs.filled hphase)
  | finalize =>
    have hphase : s.status.phase = .scored := by simpa [phaseAllows] using hp
    obtain ⟨hplanes, hfilled⟩ := filled_of_bodyFinalize (hv rfl) (hs.planes (by rw [hphase]; decide))
      (hs.filled (by rw [hphase]; decide)) h
    exact SymbolOk.of_filled (p := .final) (by decide) hplanes hfilled
  | run =>
    obtain ⟨hplanes, hfilled⟩ := filled_of_bodyRun (hv rfl) h
    exact SymbolOk.of_filled (p := .final) (by decide) hplanes hfilled

end Sys2Proof.Machine
end

section
/-! PROOFS. The invariant: what each shared operation does to it, and that every effect of a step keeps it. -/

namespace Sys2Proof.Machine

open Sys2Proof.Claims

variable {s t : State}

/-! ### Updates the invariant does not see -/

theorem inv_setScript (h : s.Inv) (l : List Event) : (s.setScript l).Inv :=
  ⟨h.mem, h.flags, h.engine, h.config, h.scores, h.matrix, h.fresh⟩

theorem inv_setResp (h : s.Inv) (r : Response) : (s.setResp r).Inv :=
  ⟨h.mem, h.flags, h.engine, h.config, h.scores, h.matrix, h.fresh⟩

theorem inv_setIen (h : s.Inv) (e : Ien) : (s.setIen e).Inv :=
  ⟨h.mem, h.flags, h.engine, h.config, h.scores, h.matrix, h.fresh⟩

/-! ### Updates of the flags -/

theorem inv_clearDone (h : s.Inv) : (clearDone s).Inv where
  mem := h.mem
  flags := by
    obtain ⟨hbusy, -, herr, hcode⟩ := h.flags
    exact ⟨fun hb => ⟨rfl, (hbusy hb).2⟩, (fun hd => by cases hd), herr, hcode⟩
  engine := h.engine
  config := h.config
  scores := h.scores
  matrix := h.matrix
  fresh := h.fresh

theorem inv_clearErr (h : s.Inv) : (clearErr s).Inv where
  mem := h.mem
  flags := by
    obtain ⟨hbusy, -, -, -⟩ := h.flags
    exact ⟨fun hb => ⟨(hbusy hb).1, rfl⟩, fun _ => rfl, fun _ => ⟨rfl, rfl⟩, (fun he => by cases he)⟩
  engine := h.engine
  config := h.config
  scores := h.scores
  matrix := h.matrix
  fresh := h.fresh

theorem inv_writeStatus (h : s.Inv) (w : Word) : (writeStatus w s).Inv := by
  unfold writeStatus
  split_ifs
  exacts [inv_clearErr (inv_clearDone h), inv_clearDone h, inv_clearErr h, h]

/-- A command error is recorded on an idle block whose DONE is cleared (R123, R146). -/
theorem inv_raiseTaken (h : s.Inv) (hb : s.status.busy = false) (hd : s.status.done = false) {code : ErrCode}
    (hcode : code ≠ .none) (opc : Byte) : (raiseTaken code opc s).Inv where
  mem := h.mem
  flags := ⟨fun hb' => absurd (hb.symm.trans hb') (by decide), fun hd' => absurd (hd.symm.trans hd') (by decide),
    (fun he => by cases he), fun _ => hcode⟩
  engine hb' := absurd (hb.symm.trans hb') (by decide)
  config := h.config
  scores := h.scores
  matrix := h.matrix
  fresh := h.fresh

/-- A command is accepted by a block with DONE = 0 and ERR = 0 when its checks hold (R69). -/
theorem inv_accept {i : Instr} (h : s.Inv) (hi : i ≠ .softReset) (hd : s.status.done = false)
    (he : s.status.err = false) (hcfg : needsCfg i = true → s.cfg.valid = true)
    (hphase : phaseAllows i s.status.phase = true) : (accept i s).Inv where
  mem := h.mem
  flags := by
    obtain ⟨-, hdone, herr, hcode⟩ := h.flags
    exact ⟨fun _ => ⟨hd, he⟩, hdone, herr, hcode⟩
  engine _ := ⟨i, running_eq_some.mpr ⟨hi, rfl⟩, hcfg, hphase⟩
  config := h.config
  scores := h.scores
  matrix := h.matrix
  fresh := h.fresh

/-- Taking a legal word: an error recorded, or the command accepted (R69, R126). -/
theorem inv_take {i : Instr} (h : s.Inv) (hi : i ≠ .softReset) (hb : s.status.busy = false)
    (he : s.status.err = false) : (take i s).Inv := by
  rcases take_cases i s with ⟨-, -, hx⟩ | ⟨-, -, hx⟩ | ⟨hcfg, hphase, hx⟩ <;> rw [hx]
  · exact inv_raiseTaken (inv_clearDone h) hb rfl (by decide) _
  · exact inv_raiseTaken (inv_clearDone h) hb rfl (by decide) _
  · exact inv_accept (inv_clearDone h) hi rfl he hcfg hphase

/-! ### Updates that end in IDLE -/

/-- At IDLE with nothing running the invariant is about the storage's form, the flags and the scores only. -/
theorem State.inv_of_idle (hmem : t.mem.wf = true) (hflags : t.FlagsOk) (hscores : t.ScoresOk)
    (hbusy : t.status.busy = false) (hphase : t.status.phase = .idle) : t.Inv where
  mem := hmem
  flags := hflags
  engine hb := absurd hb (by simp [hbusy])
  config hp := absurd hphase hp
  scores := hscores
  matrix := ((symbolOk_iff t).mp (SymbolOk.of_early (by rw [hphase]; decide) t)).1
  fresh := ((symbolOk_iff t).mp (SymbolOk.of_early (by rw [hphase]; decide) t)).2

/-- The scores are all 0 after reset, and so are their sums. -/
theorem reset_scoresOk : State.reset.ScoresOk := by
  unfold State.ScoresOk
  decide

theorem reset_flagsOk : State.reset.FlagsOk := by
  unfold State.FlagsOk
  decide

theorem inv_hardReset (s : State) : (hardReset s).Inv :=
  State.inv_of_idle State.reset_mem_wf reset_flagsOk reset_scoresOk rfl rfl

/-- SOFT_RESET clears the sequencer; an abort leaves canonical storage (R74, R140). -/
theorem inv_softReset (h : s.Inv) : (softReset s).Inv := by
  obtain ⟨hstatus, hinfo, -, hpen, hpentot, -⟩ := softReset_registers s
  refine State.inv_of_idle ?_ ?_ ?_ (by rw [hstatus]; rfl) (by rw [hstatus]; rfl)
  · cases hb : s.status.busy with
    | false => exact (softReset_idle s hb).1 ▸ h.mem
    | true =>
      obtain ⟨i, hr, hcfg, -⟩ := h.engine hb
      have hmem : (softReset s).mem = (abortOutputs s).mem := by
        simp [softReset, hb, clearSequencer]
      exact hmem ▸ (abortOutputs_outputs hr hcfg).wf h.mem
  · unfold State.FlagsOk
    rw [hstatus, hinfo]
    exact reset_flagsOk
  · unfold State.ScoresOk
    rw [hpen, hpentot]
    exact reset_scoresOk

/-- A write to CFG or DBUF while BUSY = 0 leaves PHASE at IDLE (R54). -/
theorem inv_phaseToIdle (hmem : s.mem.wf = true) (hflags : s.FlagsOk) (hscores : s.ScoresOk)
    (hb : s.status.busy = false) : (phaseToIdle s).Inv :=
  State.inv_of_idle hmem hflags hscores hb rfl

theorem inv_writeCfg (h : s.Inv) (hb : s.status.busy = false) (w : Word) : (writeCfg w s).Inv :=
  inv_phaseToIdle (s := s.setCfg (cfgOfWord w)) h.mem h.flags h.scores hb

theorem inv_storeDbuf (h : s.Inv) (hb : s.status.busy = false) {a : Nat} {bs : List Byte} (hlo : 0x01000 ≤ a)
    (hhi : a + bs.length ≤ 0x02000) : (phaseToIdle (s.storeBlock a bs)).Inv :=
  inv_phaseToIdle (s := s.storeBlock a bs)
    (State.wf_storeBuffer h.mem _ _ hlo (hhi.trans (by decide))) h.flags h.scores hb

/-! ### Completion -/

/-- With nothing wrong a completion step ends with DONE and the phase of its command (R71). -/
theorem inv_finish {i : Instr} (h : s.Inv) (hb : s.status.busy = true)
    (hcfg : needsCfg i = true → s.cfg.valid = true) (hphase : phaseAllows i s.status.phase = true)
    (hout : OutputsOnly s t) (hdone : bodyOf i s = .done t) : (finish i t).Inv := by
  obtain ⟨hbusy, -, hnoerr, -⟩ := h.flags
  have herr : t.status.err = false := by
    rw [hout.status]
    exact (hbusy hb).2
  have hphase' : t.status.phase = s.status.phase := by rw [hout.status]
  have hsymbol : SymbolOk (finish i t).status.phase (finish i t) := by
    have ht : SymbolOk (phaseAfter i t.status.phase) t :=
      hphase' ▸ bodyOf_symbolOk hcfg hphase ((symbolOk_iff s).mpr ⟨h.matrix, h.fresh⟩) hdone
    exact ⟨ht.planes, ht.filled, ht.drawn⟩
  obtain ⟨hmatrix, hfresh⟩ := (symbolOk_iff _).mp hsymbol
  refine ⟨hout.wf h.mem, ⟨(fun hb' => by cases hb'), fun _ => herr, fun _ => ?_, fun he => ?_⟩,
    (fun hb' => by cases hb'), fun hp => ?_, hout.scores h.scores, hmatrix, hfresh⟩
  · have herrcode : t.status.errcode = s.status.errcode := by rw [hout.status]
    show t.status.errcode = .none ∧ t.errinfo = ErrInfo.zero
    rw [herrcode, hout.errinfo]
    exact hnoerr (hbusy hb).2
  · exact absurd (herr.symm.trans he) (by decide)
  · show t.cfg.valid = true
    rw [hout.cfg]
    cases i with
    | nop => exact h.config (hphase' ▸ hp)
    | softReset => exact absurd rfl hp
    | rsEncode | interleave | buildFunc | place | score | finalize | run => exact hcfg rfl

/-- INTERNAL ends a completion step with PHASE at IDLE and the error recorded (R124). -/
theorem inv_raiseInternal (h : s.Inv) (hb : s.status.busy = true) (hout : OutputsOnly s t) (opc : Byte) :
    (raiseInternal opc t).Inv := by
  obtain ⟨hbusy, -, -, -⟩ := h.flags
  have hdone : t.status.done = false := by
    rw [hout.status]
    exact (hbusy hb).1
  refine State.inv_of_idle (hout.wf h.mem)
    ⟨(fun hb' => by cases hb'), fun hd => ?_, (fun he => by cases he), fun _ => ?_⟩
    (hout.scores h.scores) rfl rfl
  · exact absurd (hdone.symm.trans hd) (by decide)
  · show ErrCode.internal ≠ .none
    decide

theorem inv_complete {i : Instr} (h : s.Inv) (hb : s.status.busy = true) (hr : s.running = some i) :
    (complete i (bodyOf i) s).Inv := by
  obtain ⟨j, hj, hcfg, hphase⟩ := h.engine hb
  obtain rfl : i = j := Option.some.inj (hr.symm.trans hj)
  obtain ⟨t, hout, ⟨hdone, hx⟩ | ⟨opc, hx⟩⟩ := complete_outputs hcfg <;> rw [hx]
  · exact inv_finish h hb hcfg hphase hout hdone
  · exact inv_raiseInternal h hb hout opc

/-! ### The step -/

theorem leBytes_length (n : Nat) (v : Word) : (leBytes n v).length = n := by
  simp [leBytes]

/-- Every effect of a step keeps the invariant. -/
theorem StepEffect.inv (ht : StepEffect s t) (h : s.Inv) : t.Inv := by
  have hscript (l : List Event) : (s.setScript l).Inv := inv_setScript h l
  cases ht with
  | idle hnext hb => exact hscript _
  | completed i hnext hb hr => exact inv_complete (hscript _) hb hr
  | hardReset rest hs => exact inv_hardReset _
  | read a rest hs hr => exact inv_setResp (hscript rest) _
  | refused a rest hs hw => exact inv_setResp (hscript rest) _
  | cfg w rest hs hb => exact inv_setResp (inv_writeCfg (hscript rest) hb w) _
  | status w rest hs => exact inv_setResp (inv_writeStatus (hscript rest) w) _
  | ien w rest hs => exact inv_setResp (inv_setIen (hscript rest) _) _
  | dbuf a rest hs hw hlo hhi hb =>
    have hlen : accessAddr a + (leBytes (accessSize a) (writeValue a)).length ≤ 0x02000 := by
      rw [leBytes_length]
      exact hhi
    exact inv_setResp (inv_storeDbuf (hscript rest) hb hlo hlen) _
  | softReset rest hs => exact inv_setResp (inv_softReset (hscript rest)) _
  | illegal w e rest hs hb he hd =>
    exact inv_setResp (inv_raiseTaken (code := .illegalCmd) (inv_clearDone (hscript rest)) hb rfl (by decide) _) _
  | taken i rest hs hi hb he => exact inv_setResp (inv_take (hscript rest) hi hb he) _

end Sys2Proof.Machine
end

section
namespace Sys2Proof.Proofs

open Sys2Proof.Machine

/-- Settles O23: by `step_effect`, each of whose cases keeps the invariant. -/
theorem stepKeepsTheInvariant : Obligations.StepKeepsTheInvariant := by
  intro s t h hstep
  exact (step_effect hstep).inv h

end Sys2Proof.Proofs
end

section
/-! PROOFS. Accesses to the buffers and to the MATRIX window (20_memory.md): little-endian words by their bits and by their
value, the region and the data of an access, and the effect of a write to DBUF. -/

namespace Sys2Proof.Machine

open Sys2Proof.Claims

/-! ### Little-endian words -/

@[simp] theorem leWord_nil : leWord [] = 0 := rfl

theorem leWord_cons (b : Byte) (bs : List Byte) : leWord (b :: bs) = leWord bs <<< 8 ||| b.setWidth 32 := rfl

/-- Bit k of a little-endian word is bit k % 8 of byte k / 8 (R50). -/
theorem getLsbD_leWord (bs : List Byte) {k : Nat} (hk : k < 32) :
    (leWord bs).getLsbD k = (bs.getD (k / 8) 0).getLsbD (k % 8) := by
  induction bs generalizing k with
  | nil => simp
  | cons b bs ih =>
    rw [leWord_cons, BitVec.getLsbD_or, BitVec.getLsbD_shiftLeft, BitVec.getLsbD_setWidth]
    by_cases hlow : k < 8
    · simp [hk, hlow, Nat.div_eq_of_lt hlow, Nat.mod_eq_of_lt hlow]
    · have hbit : b.getLsbD k = false := BitVec.getLsbD_of_ge b k (by omega)
      have hdiv : k / 8 = (k - 8) / 8 + 1 := by omega
      have hmod : (k - 8) % 8 = k % 8 := by omega
      rw [ih (by omega), hmod, hdiv, List.getD_cons_succ]
      simp [hk, hlow, hbit]

/-- Bit j of byte i of a little-endian word (R50). -/
theorem getLsbD_leWord_byte (bs : List Byte) {i j : Nat} (hi : i < 4) (hj : j < 8) :
    (leWord bs).getLsbD (8 * i + j) = (bs.getD i 0).getLsbD j := by
  have hdiv : (8 * i + j) / 8 = i := by omega
  have hmod : (8 * i + j) % 8 = j := by omega
  rw [getLsbD_leWord bs (by omega), hdiv, hmod]

/-- A field inside byte i of a little-endian word is that field of the byte. -/
theorem extractLsb'_leWord (bs : List Byte) {i start len : Nat} (hi : i < 4) (hfit : start + len ≤ 8) :
    (leWord bs).extractLsb' (8 * i + start) len = (bs.getD i 0).extractLsb' start len := by
  refine BitVec.eq_of_getLsbD_eq fun j hj => ?_
  rw [BitVec.getLsbD_extractLsb', BitVec.getLsbD_extractLsb', Nat.add_assoc, getLsbD_leWord_byte bs hi (by omega)]

/-- Above its bytes a little-endian word is 0. -/
theorem getLsbD_leWord_of_ge (bs : List Byte) {k : Nat} (h : 8 * bs.length ≤ k) : (leWord bs).getLsbD k = false := by
  by_cases hk : k < 32
  · rw [getLsbD_leWord bs hk, List.getD_eq_default _ _ (by omega), BitVec.ofNat_eq_ofNat, BitVec.getLsbD_zero]
  · exact BitVec.getLsbD_of_ge _ k (by omega)

/-- The value of a little-endian word has the bytes as its digits in base 256 (R50). -/
theorem leWord_eq_ofDigits (bs : List Byte) : leWord bs = BitVec.ofNat 32 (Nat.ofDigits 256 (bs.map BitVec.toNat)) := by
  induction bs with
  | nil => rfl
  | cons b bs ih =>
    have hdisjoint : leWord bs <<< 8 &&& b.setWidth 32 = 0 := by
      refine BitVec.eq_of_getLsbD_eq fun j hj => ?_
      by_cases hlow : j < 8
      · simp [hlow]
      · simp [BitVec.getLsbD_of_ge b j (by omega)]
    calc leWord (b :: bs)
        = leWord bs <<< 8 + b.setWidth 32 := by rw [leWord_cons, BitVec.add_eq_or_of_and_eq_zero _ _ hdisjoint]
      _ = BitVec.ofNat 32 (b.toNat + 256 * Nat.ofDigits 256 (bs.map BitVec.toNat)) := by
        apply BitVec.eq_of_toNat_eq
        rw [ih]
        simp only [BitVec.toNat_add, BitVec.toNat_shiftLeft, BitVec.toNat_ofNat, BitVec.toNat_setWidth,
          Nat.shiftLeft_eq]
        omega
      _ = BitVec.ofNat 32 (Nat.ofDigits 256 ((b :: bs).map BitVec.toNat)) := by rw [List.map_cons, Nat.ofDigits_cons]

/-- The bytes of a value read back as its low n bytes (R50). -/
theorem leWord_leBytes (n : Nat) (v : Word) : leWord (leBytes n v) = (v.setWidth (8 * n)).setWidth 32 := by
  refine BitVec.eq_of_getLsbD_eq fun k hk => ?_
  rw [BitVec.getLsbD_setWidth, BitVec.getLsbD_setWidth]
  by_cases hkn : k < 8 * n
  · have hbyte : (leBytes n v).getD (k / 8) 0 = v.extractLsb' (8 * (k / 8)) 8 := by
      simp [leBytes, show k / 8 < n by omega]
    have hmod : k % 8 < 8 := Nat.mod_lt _ (by decide)
    rw [getLsbD_leWord _ hk, hbyte, BitVec.getLsbD_extractLsb', Nat.div_add_mod]
    simp [hk, hkn, hmod]
  · rw [getLsbD_leWord_of_ge _ (by rw [leBytes_length]; omega)]
    simp [hkn]

/-- The n storage bytes from `a` as a word are the value the statements speak of (R50). -/
theorem leWord_readRam (s : State) (a n : Nat) :
    leWord ((List.range n).map fun i => s.readRam (a + i)) = bytesValue s a n := by
  have hdigits : ((List.range n).map fun i => (s.readRam (a + i)).toNat * 256 ^ i) =
      (((List.range n).map fun i => s.readRam (a + i)).map BitVec.toNat).mapIdx fun i d => d * 256 ^ i :=
    List.ext_getElem (by simp) (by simp)
  rw [leWord_eq_ofDigits, Nat.ofDigits_eq_sum_mapIdx, ← hdigits, bytesValue]

/-! ### The region and the data of an access -/

/-- An aligned access inside a region that is not one of registers reaches it, whatever its size (R47 to R49). -/
theorem target_of_bounds {r : Region} (hr : r.isRegister = false) {a n : Nat} (hn : 0 < n) (hlo : r.bounds.1 ≤ a)
    (hhi : a + n ≤ r.bounds.2) (halign : a % n = 0) : target a n = some r :=
  target_eq_some.mpr ⟨regionOf_eq_some.mpr ⟨hlo, by omega⟩, regionOf_eq_some.mpr ⟨by omega, by omega⟩, halign,
    fun h => absurd (hr.symm.trans h) (by decide)⟩

/-- A region that is not one of registers is read byte by byte: DBUF always, the others while BUSY = 0 (R142). -/
theorem hostReadData_of_target {r : Region} (hr : r.isRegister = false) {a n : Nat} (ht : target a n = some r) {s : State}
    (hb : r = .dbuf ∨ s.status.busy = false) : hostReadData a n s = some (s.portWord a n) := by
  rw [hostReadData, ht]
  cases r with
  | regs | pens => cases hr
  | dbuf => rfl
  | ecbuf | cwbuf | matrix =>
    rcases hb with h | h
    · cases h
    · simp [h]

theorem hostReadData_setScript (a n : Nat) (s : State) (l : List Event) :
    hostReadData a n (s.setScript l) = hostReadData a n s := rfl

/-! ### The sizes of an access -/

theorem size_cases {n : Nat} (h : n ∈ [1, 2, 4]) : n = 1 ∨ n = 2 ∨ n = 4 := by simpa using h

theorem size_pos {n : Nat} (h : n ∈ [1, 2, 4]) : 0 < n := by
  rcases size_cases h with rfl | rfl | rfl <;> decide

/-! ### The buffers -/

/-- Below the MATRIX window the port shows the storage (R50). -/
theorem portByte_of_lt {a : Nat} (h : a < 0x10000) (s : State) : s.portByte a = s.readRam a :=
  if_neg (Nat.not_le.mpr h)

theorem portWord_of_le {a n : Nat} (h : a + n ≤ 0x10000) (s : State) :
    s.portWord a n = leWord ((List.range n).map fun i => s.readRam (a + i)) := by
  refine congrArg leWord (List.map_congr_left fun i hi => ?_)
  have hin : i < n := List.mem_range.mp hi
  exact portByte_of_lt (by omega) s

theorem buffer_below_window : ∀ r ∈ [Region.dbuf, .ecbuf, .cwbuf], r.isRegister = false ∧ r.bounds.2 ≤ 0x10000 := by
  decide

/-- A read of DBUF in every state, and of ECBUF or CWBUF while BUSY = 0 (R50, R142). -/
theorem hostReadData_buffer {r : Region} (hr : r ∈ [Region.dbuf, .ecbuf, .cwbuf]) {a n : Nat} (hn : 0 < n)
    (hlo : r.bounds.1 ≤ a) (hhi : a + n ≤ r.bounds.2) (halign : a % n = 0) {s : State}
    (hb : r = .dbuf ∨ s.status.busy = false) : hostReadData a n s = some (bytesValue s a n) := by
  obtain ⟨hreg, hend⟩ := buffer_below_window r hr
  rw [hostReadData_of_target hreg (target_of_bounds hreg hn hlo hhi halign) hb, portWord_of_le (hhi.trans hend),
    leWord_readRam]

/-- A byte inside a block just stored. -/
theorem readRam_storeBytes (s : State) (a : Nat) {i n : Nat} (hi : i < n) (v : Word) :
    (s.storeBlock a (leBytes n v)).readRam (a + i) = v.extractLsb' (8 * i) 8 := by
  rw [State.readRam_storeBlock, leBytes_length, if_pos (by omega), Nat.add_sub_cancel_left]
  simp [leBytes, hi]

/-- The storage from `a` up holding the bytes of `v`, a read of m of them gives the low m bytes of `v` (R50). -/
theorem bytesValue_of_bytes {s : State} {a m : Nat} {v : Word}
    (h : ∀ i, i < m → s.readRam (a + i) = v.extractLsb' (8 * i) 8) :
    bytesValue s a m = (v.setWidth (8 * m)).setWidth 32 := by
  rw [← leWord_readRam, ← leWord_leBytes]
  exact congrArg leWord (List.map_congr_left fun i hi => h i (List.mem_range.mp hi))

/-! ### Writes -/

theorem isWrite_writeOf (n : Nat) (a : BitVec 17) (v : Word) : isWrite (writeOf n a v) = true := by
  unfold writeOf
  split_ifs <;> rfl

theorem accessAddr_writeOf (n : Nat) (a : BitVec 17) (v : Word) : accessAddr (writeOf n a v) = a.toNat := by
  unfold writeOf
  split_ifs <;> rfl

theorem accessSize_writeOf {n : Nat} (hn : n ∈ [1, 2, 4]) (a : BitVec 17) (v : Word) :
    accessSize (writeOf n a v) = n := by
  rcases size_cases hn with rfl | rfl | rfl <;> rfl

/-- The value a write of n bytes gives to the port keeps the low n bytes. -/
theorem writeValue_writeOf {n : Nat} (hn : n ∈ [1, 2, 4]) (a : BitVec 17) (v : Word) :
    writeValue (writeOf n a v) = (v.setWidth (8 * n)).setWidth 32 := by
  rcases size_cases hn with rfl | rfl | rfl
  · rfl
  · rfl
  · exact (BitVec.setWidth_eq v).symm.trans (BitVec.setWidth_eq (v.setWidth 32)).symm

/-- The bytes stored depend on the low n bytes of the value only. -/
theorem leBytes_setWidth (n : Nat) (v : Word) : leBytes n ((v.setWidth (8 * n)).setWidth 32) = leBytes n v := by
  refine List.map_congr_left fun i hi => BitVec.eq_of_getLsbD_eq fun j hj => ?_
  have hin : i < n := List.mem_range.mp hi
  simp only [BitVec.getLsbD_extractLsb', BitVec.getLsbD_setWidth]
  by_cases hk : 8 * i + j < 32
  · simp [hk, show 8 * i + j < 8 * n by omega]
  · simp [hk, BitVec.getLsbD_of_ge v (8 * i + j) (by omega)]

/-- The state after a write of n bytes of `v` to DBUF (R50, R54). -/
def dbufWritten (a n : Nat) (v : Word) (rest : List Event) (s : State) : State :=
  respondOk (phaseToIdle ((s.setScript rest).storeBlock a (leBytes n v)))

/-- A write of n bytes to DBUF while BUSY = 0 is performed (R45, R54, R142). -/
theorem step_writeDbuf {s : State} {n : Nat} {a : BitVec 17} {v : Word} {rest : List Event}
    (hs : s.script = .host (writeOf n a v) :: rest) (hn : n ∈ [1, 2, 4]) (hb : s.status.busy = false)
    (hlo : 0x01000 ≤ a.toNat) (hhi : a.toNat + n ≤ 0x02000) (halign : a.toNat % n = 0) :
    step s = .next (dbufWritten a.toNat n v rest s) := by
  have htarget : target a.toNat n = some .dbuf := target_of_bounds rfl (size_pos hn) hlo hhi halign
  rw [step_host hs, hostAccess_write (isWrite_writeOf n a v), accessAddr_writeOf, accessSize_writeOf hn,
    writeValue_writeOf hn, hostWrite, htarget, writeDbuf, if_neg (by simp [hb]), leBytes_setWidth]
  rfl

theorem readRam_dbufWritten (a n : Nat) (v : Word) (rest : List Event) (s : State) (b : Nat) :
    (dbufWritten a n v rest s).readRam b = (s.storeBlock a (leBytes n v)).readRam b := rfl

/-- A write to CFG or DBUF is performed, or refused with SLVERR (R54, R129). -/
theorem inputWrite_cases {s t : State} {h : HostAccess} {rest : List Event} (hs : s.script = .host h :: rest)
    (hw : isWrite h = true) (haddr : accessAddr h = 0x00004 ∨ (0x01000 ≤ accessAddr h ∧ accessAddr h < 0x02000))
    (hstep : step s = .next t) :
    (∃ w, t = respondOk (writeCfg w (s.setScript rest))) ∨
    (accessAddr h + accessSize h ≤ 0x02000 ∧
      t = dbufWritten (accessAddr h) (accessSize h) (writeValue h) rest s) ∨
    t = respondSlverr (s.setScript rest) := by
  rw [step_host hs, hostAccess_write hw] at hstep
  rcases hostWrite_cases (accessAddr h) (accessSize h) (writeValue h) (s.setScript rest) with
    ⟨htarget, hx⟩ | ⟨htarget, hx⟩ | ⟨-, -, hx⟩ <;> rw [hx] at hstep
  · obtain ⟨hreg, -, -, -⟩ := target_eq_some.mp htarget
    have hlt : accessAddr h < 0x00024 := (regionOf_eq_some.mp hreg).2
    rw [writeRegister, if_pos (by omega)] at hstep
    split_ifs at hstep <;> cases hstep
    · exact .inr (.inr rfl)
    · exact .inl ⟨_, rfl⟩
  · rw [writeDbuf] at hstep
    split_ifs at hstep <;> cases hstep
    · exact .inr (.inr rfl)
    · exact .inr (.inl ⟨(bounds_of_target_dbuf htarget).2, rfl⟩)
  · cases hstep
    exact .inr (.inr rfl)

/-! ### The MATRIX window -/

/-- The planes of a cell in its byte, the four high bits 0 (R42). -/
theorem toByte_planes (x : Cell) :
    x.toByte.getLsbD 0 = x.dark ∧ x.toByte.getLsbD 1 = x.func ∧ x.toByte.getLsbD 2 = x.set ∧
    x.toByte.getLsbD 3 = x.rsv ∧ x.toByte.extractLsb' 4 4 = 0 := by
  obtain ⟨set, func, rsv, dark⟩ := x
  revert set func rsv dark
  decide

/-- The window's byte at cell (r, c): the cell byte inside the symbol, 0 outside it (R51). -/
theorem portByte_cell (s : State) (r : Nat) {c : Nat} (hc : c < 256) :
    s.portByte (0x10000 + 256 * r + c) =
      if s.cfg.valid ∧ r < s.side ∧ c < s.side then (s.readCell r c).toByte else 0 := by
  have hrow : (0x10000 + 256 * r + c - Config.matrixBase) / 256 = r := by simp only [Config.matrixBase]; omega
  have hcol : (0x10000 + 256 * r + c - Config.matrixBase) % 256 = c := by simp only [Config.matrixBase]; omega
  have hle : Config.matrixBase ≤ 0x10000 + 256 * r + c := by simp only [Config.matrixBase]; omega
  rw [State.portByte, if_pos hle, State.windowByte, hrow, hcol]

/-- The bytes a read of n cells from (r, c) shows (R51). -/
def windowBytes (s : State) (r c n : Nat) : List Byte :=
  (List.range n).map fun i => s.portByte (0x10000 + 256 * r + c + i)

@[simp] theorem windowBytes_length (s : State) (r c n : Nat) : (windowBytes s r c n).length = n := by
  simp [windowBytes]

theorem windowBytes_getD (s : State) (r : Nat) {c n i : Nat} (hi : i < n) (hc : c + n ≤ 256) :
    (windowBytes s r c n).getD i 0 =
      if s.cfg.valid ∧ r < s.side ∧ c + i < s.side then (s.readCell r (c + i)).toByte else 0 := by
  rw [← portByte_cell s r (show c + i < 256 by omega)]
  simp [windowBytes, hi, Nat.add_assoc]

/-- A read of n cells of one row of the window while BUSY = 0 (R51). -/
theorem hostReadData_window {s : State} (hb : s.status.busy = false) {n r c : Nat} (hn : 0 < n) (hr : r < 256)
    (hc : c + n ≤ 256) (halign : (0x10000 + 256 * r + c) % n = 0) :
    hostReadData (0x10000 + 256 * r + c) n s = some (leWord (windowBytes s r c n)) := by
  have htarget : target (0x10000 + 256 * r + c) n = some .matrix :=
    target_of_bounds rfl hn (by simp only [Region.bounds]; omega) (by simp only [Region.bounds]; omega) halign
  exact hostReadData_of_target rfl htarget (.inr hb)

end Sys2Proof.Machine
end

section
/-! PROOFS. The host port statements of 20_memory.md. -/

namespace Sys2Proof.Proofs

open Sys2Proof.Machine Sys2Proof.Claims

/-- Settles O30: the data does not depend on the script, and the answer is all that is written. -/
theorem readsHaveNoSideEffects : Obligations.ReadsHaveNoSideEffects := by
  intro s h rest hs hr
  rw [step_host hs, hostAccess_read hr, hostRead_eq, hostReadData_setScript]
  rfl

/-- Settles O32: of the ways such a write can go, the refused one is not answered OK. -/
theorem inputWritesSetPhaseIdle : Obligations.InputWritesSetPhaseIdle := by
  intro s t h d rest hs hw haddr hstep hok
  rcases inputWrite_cases hs hw haddr hstep with ⟨w, rfl⟩ | ⟨hend, rfl⟩ | rfl
  · exact ⟨rfl, rfl, rfl, fun a ha => rfl⟩
  · refine ⟨rfl, rfl, rfl, fun a ha => ?_⟩
    rw [readRam_dbufWritten, State.readRam_storeBlock, leBytes_length, if_neg (by omega)]
  · cases hok

/-- Settles O33: the write by `step_writeDbuf`, the reads by the little-endian value of the stored bytes. -/
theorem dbufWordWriteIsLittleEndian : Obligations.DbufWordWriteIsLittleEndian := by
  constructor
  · intro s n a v rest hs hn hb hlo hhi halign
    have hbytes : ∀ i, i < n → (dbufWritten a.toNat n v rest s).readRam (a.toNat + i) = v.extractLsb' (8 * i) 8 :=
      fun i hi => readRam_storeBytes s a.toNat hi v
    have hread {m : Nat} (hm : 0 < m) (hmn : m ≤ n) (hma : a.toNat % m = 0) :
        hostReadData a.toNat m (dbufWritten a.toNat n v rest s) = some ((v.setWidth (8 * m)).setWidth 32) := by
      rw [hostReadData_buffer (r := .dbuf) (by decide) hm hlo ((Nat.add_le_add_left hmn _).trans hhi) hma (.inl rfl),
        bytesValue_of_bytes fun i hi => hbytes i (by omega)]
    refine ⟨_, step_writeDbuf hs hn hb hlo hhi halign, rfl, hbytes, fun b hb' => ?_,
      hread (size_pos hn) le_rfl halign, ?_⟩
    · rw [readRam_dbufWritten, State.readRam_storeBlock, leBytes_length, if_neg hb']
    · rw [hread Nat.one_pos (size_pos hn) (Nat.mod_one _), ← BitVec.setWidth_eq_extractLsb' (by decide)]
  · intro s n a hn halign
    refine ⟨fun hlo hhi => hostReadData_buffer (r := .dbuf) (by decide) (size_pos hn) hlo hhi halign (.inl rfl),
      fun hb hlo hhi => ?_⟩
    by_cases hec : a + n ≤ 0x03000
    · exact hostReadData_buffer (r := .ecbuf) (by decide) (size_pos hn) hlo hec halign (.inr hb)
    · have hcw : 0x03000 ≤ a := by rcases size_cases hn with rfl | rfl | rfl <;> omega
      exact hostReadData_buffer (r := .cwbuf) (by decide) (size_pos hn) hcw hhi halign (.inr hb)

/-- Settles O41: byte i of the word read is the window's byte at cell (r, c + i). -/
theorem matrixWindowShowsTheSymbol : Obligations.MatrixWindowShowsTheSymbol := by
  intro s n r c hb hn hr hc halign
  have hsize : n ≤ 4 ∧ c + n ≤ 256 ∧ (0x10000 + 256 * r + c) % n = 0 := by
    rcases size_cases hn with rfl | rfl | rfl <;> omega
  obtain ⟨h4, hrow, haddr⟩ := hsize
  refine ⟨_, hostReadData_window hb (size_pos hn) hr hrow haddr, fun i hi hv hrs hcs => ?_, fun i hi hout => ?_,
    fun k hk => ?_⟩
  · have hcell : (windowBytes s r c n).getD i 0 = (s.readCell r (c + i)).toByte := by
      rw [windowBytes_getD s r hi hrow, if_pos ⟨(valid_iff s).mpr hv, hrs, hcs⟩]
    have hbit {j : Nat} (hj : j < 8) :
        (leWord (windowBytes s r c n)).getLsbD (8 * i + j) = (s.readCell r (c + i)).toByte.getLsbD j := by
      rw [getLsbD_leWord_byte _ (by omega) hj, hcell]
    obtain ⟨hdark, hfunc, hset, hrsv, hhigh⟩ := toByte_planes (s.readCell r (c + i))
    refine ⟨(hbit (j := 0) (by decide)).trans hdark, (hbit (by decide)).trans hfunc, (hbit (by decide)).trans hset,
      (hbit (by decide)).trans hrsv, ?_⟩
    rw [extractLsb'_leWord _ (by omega) (by decide), hcell, hhigh]
  · have hzero : (windowBytes s r c n).getD i 0 = 0 := by
      rw [windowBytes_getD s r hi hrow, if_neg (by rwa [valid_iff])]
    exact (extractLsb'_leWord _ (start := 0) (by omega) (by decide)).trans (by rw [hzero]; rfl)
  · exact getLsbD_leWord_of_ge _ (by rwa [windowBytes_length])

end Sys2Proof.Proofs
end

section
/-! PROOFS. The encoding (R62 to R66): decode and encode are inverse to each other, the nine words are the encodings of the
nine commands, and the two errors are told apart by RSVD and OPC. -/

namespace Sys2Proof.Proofs

open Sys2Proof.Machine Sys2Proof.Claims

/-! ### Decoding against encoding -/

@[simp] theorem decode_encode (i : Instr) : decode (encode i) = .ok i :=
  decode_eq_ok.mpr (splitWord_joinWord ⟨0, opcode i⟩)

theorem decode_eq_ok_iff_eq_encode {w : Word} {i : Instr} : decode w = .ok i ↔ w = encode i := by
  constructor
  · exact eq_encode_of_decode
  · rintro rfl
    exact decode_encode i

theorem decode_eq_reservedNonzero {w : Word} : decode w = .error .reservedNonzero ↔ (splitWord w).rsvd ≠ 0 := by
  simp only [decode, RawCommand.reservedZero, beq_iff_eq]
  by_cases hr : (splitWord w).rsvd = 0
  · cases ho : ofOpcode (splitWord w).opc <;> simp [hr]
  · simp only [hr, if_false, ne_eq, not_false_eq_true]

theorem decode_eq_undefinedOpcode {w : Word} :
    decode w = .error .undefinedOpcode ↔ (splitWord w).rsvd = 0 ∧ ofOpcode (splitWord w).opc = none := by
  simp only [decode, RawCommand.reservedZero, beq_iff_eq]
  by_cases hr : (splitWord w).rsvd = 0
  · cases ho : ofOpcode (splitWord w).opc <;> simp [hr]
  · simp only [hr, if_false, false_and, Except.error.injEq, reduceCtorEq]

/-! ### The nine words -/

theorem mem_nineCommands (i : Instr) : i ∈ nineCommands := by
  cases i <;> decide

theorem nineCommands_map_encode : nineCommands.map encode = nineWords := by decide

theorem mem_nineWords {w : Word} : w ∈ nineWords ↔ ∃ i, w = encode i := by
  rw [← nineCommands_map_encode, List.mem_map]
  constructor
  · rintro ⟨i, -, rfl⟩
    exact ⟨i, rfl⟩
  · rintro ⟨i, rfl⟩
    exact ⟨i, mem_nineCommands i, rfl⟩

/-! ### The obligations -/

/-- Settles O2: splitting and joining a word are inverse, and the opcode table is read both ways alike. -/
theorem decodeAndEncodeAgree : Obligations.DecodeAndEncodeAgree :=
  fun _ _ => decode_eq_ok_iff_eq_encode

/-- Settles O1: the nine words are the encodings, so a word that is none of them cannot decode. -/
theorem nineWordsAndNoOtherDecode : Obligations.NineWordsAndNoOtherDecode := by
  refine ⟨fun w => ⟨fun hw => ?_, fun hw => ?_⟩, nineCommands_map_encode⟩
  · obtain ⟨i, rfl⟩ := mem_nineWords.mp hw
    exact ⟨i, decode_encode i⟩
  · cases hd : decode w with
    | ok i => exact absurd (mem_nineWords.mpr ⟨i, eq_encode_of_decode hd⟩) hw
    | error e => exact ⟨e, rfl⟩

/-- Settles O3: four words are encodings, one has an opcode outside the table of R64, one has RSVD ≠ 0. -/
theorem writtenOutWordsDecode : Obligations.WrittenOutWordsDecode := by
  refine ⟨?nop, ?interleave, ?finalize, ?run, ?undefinedOpcode, ?reservedNonzero⟩
  case undefinedOpcode => exact decode_eq_undefinedOpcode.mpr (by decide)
  case reservedNonzero => exact decode_eq_reservedNonzero.mpr (by decide)
  all_goals exact decode_eq_ok_iff_eq_encode.mpr (by decide)

end Sys2Proof.Proofs
end

section
/-! PROOFS. The CMD write, acceptance, the next state of every event, and what SOFT_RESET leaves of the storage
(40_control.md R69, R71, R74, 70_reset_and_hazards.md R140). -/

namespace Sys2Proof.Machine

open Sys2Proof.Claims

/-! ### The CMD write -/

theorem step_submission {s : State} {w : Word} {rest : List Event} (hs : s.script = submission w :: rest) :
    step s = submit w (s.setScript rest) :=
  step_writeRegister hs (by decide) (by decide)

/-- With BUSY = 0 and ERR = 0 the word of a command is executed (R69). -/
theorem submit_idle {s : State} {w : Word} {i : Instr} (hb : s.status.busy = false) (he : s.status.err = false)
    (hd : decode w = .ok i) : submit w s = exec i s := by
  simp [submit, hb, he, hd]

/-- The word of SOFT_RESET is executed in every state (R69). -/
theorem submit_softReset (s : State) : submit (encode .softReset) s = exec .softReset s := by
  by_cases h : s.status.busy = true ∨ s.status.err = true
  · simp [submit, h]
  · have hd : decode (encode .softReset) = .ok .softReset := by decide
    exact submit_idle (by simp_all) (by simp_all) hd

/-- While BUSY or ERR every other word is refused (R69). -/
theorem submit_refused {s : State} {w : Word} (h : s.status.busy = true ∨ s.status.err = true)
    (hw : w ≠ encode .softReset) : submit w s = .next (respondSlverr s) := by
  simp [submit, h, hw]

/-! ### Acceptance -/

theorem needsCfg_iff (i : Instr) : needsCfg i = true ↔ NeedsValid i := by
  cases i <;> simp [needsCfg, NeedsValid]

/-- `Pre(opc)` is the table of R64. -/
theorem phaseAllows_iff (i : Instr) (p : Phase) : phaseAllows i p = true ↔ p ∈ requiredPhases i := by
  revert i p
  have h : ∀ i ∈ nineCommands, ∀ p ∈ anyPhase, phaseAllows i p = true ↔ p ∈ requiredPhases i := by decide
  exact fun i p => h i (by cases i <;> decide) p (by cases p <;> decide)

/-- A legal word whose checks hold is accepted (R69). -/
theorem take_eq_accept {i : Instr} {s : State} (hcfg : needsCfg i = true → s.cfg.valid = true)
    (hphase : phaseAllows i s.status.phase = true) : take i s = accept i (clearDone s) := by
  rcases take_cases i s with ⟨hn, hv, -⟩ | ⟨-, hp, -⟩ | ⟨-, -, h⟩
  · exact absurd (hcfg hn) (by simp [hv])
  · exact absurd hphase (by simp [hp])
  · exact h

/-! ### Every event has a next state -/

theorem submit_next (w : Word) (s : State) : ∃ t, submit w s = .next t := by
  rcases submit_cases w s with ⟨-, -, h⟩ | ⟨-, -, h⟩ | ⟨i, -, -, -, h⟩ | ⟨e, -, -, -, h⟩ <;> rw [h]
  exacts [exec_next _ _, ⟨_, rfl⟩, exec_next i s, ⟨_, rfl⟩]

theorem writeRegister_next (off : Nat) (w : Word) (s : State) : ∃ t, writeRegister off w s = .next t := by
  unfold writeRegister
  split_ifs
  exacts [⟨_, rfl⟩, ⟨_, rfl⟩, submit_next w s, ⟨_, rfl⟩, ⟨_, rfl⟩, ⟨_, rfl⟩]

theorem hostAccess_next (h : HostAccess) (s : State) : ∃ t, hostAccess h s = .next t := by
  cases hw : isWrite h with
  | false => exact ⟨_, hostAccess_read hw s⟩
  | true =>
    rw [hostAccess_write hw]
    rcases hostWrite_cases (accessAddr h) (accessSize h) (writeValue h) s with ⟨-, hx⟩ | ⟨-, hx⟩ | ⟨-, -, hx⟩ <;>
      rw [hx]
    exacts [writeRegister_next _ _ _, ⟨_, rfl⟩, ⟨_, rfl⟩]

theorem complete_not_busy (i : Instr) (body : State → BodyResult) (s : State) :
    (complete i body s).status.busy = false := by
  rcases complete_cases i body s with ⟨t, -, h⟩ | ⟨opc, t, -, h⟩ <;> rw [h] <;> rfl

/-- The engine's opportunity in a state whose running command is known ends with BUSY = 0. -/
theorem engineStep_next {s : State} (h : s.EngineOk) : ∃ t, engineStep s = .next t ∧ t.status.busy = false := by
  cases hb : s.status.busy with
  | false => exact ⟨s, by simp [engineStep, hb], hb⟩
  | true =>
    obtain ⟨i, hr, -⟩ := h hb
    exact ⟨_, (engineStep_running hb hr).trans (exec_running hb hr), complete_not_busy _ _ _⟩

/-! ### SOFT_RESET -/

/-- Unspecified symbol contents leave every byte outside the symbol (R140). -/
theorem readRam_scrambleSymbol {s : State} (hv : Valid s) (draw : Nat) {a : Nat} (h : ¬ InSymbol s a) :
    (scrambleMatrix draw s.side s).readRam a = s.readRam a :=
  readRam_scrambleMatrix draw ((State.side_le ((valid_iff s).mpr hv)).trans (by decide)) s a h

/-- An abort leaves every byte outside the aborted command's region (R140). -/
theorem readRam_abortOutputs {s : State} (hv : s.curOp ≠ 0x00 → Valid s) {a : Nat} (ha : ¬ InOutput s a) :
    (abortOutputs s).readRam a = s.readRam a := by
  cases hop : ofOpcode s.curOp with
  | none => simp [abortOutputs, hop]
  | some i =>
    have hcur := ofOpcode_eq_some.mp hop
    simp only [InOutput, hcur, not_or, not_and] at ha
    obtain ⟨hec, hcw, hsym⟩ := ha
    rw [hcur] at hv
    rw [abortOutputs, hop]
    cases i with
    | nop | softReset | score => rfl
    | rsEncode => exact readRam_scrambleEc _ _ _ _ (hec (by decide))
    | interleave => exact readRam_scrambleCw _ _ _ _ (hcw (by decide))
    | buildFunc | place | finalize => exact readRam_scrambleSymbol (hv (by decide)) _ (hsym (by decide))
    | run =>
      have hsym' := readRam_scrambleSymbol (s := scrambleCw s.draws s.total (scrambleEc s.draws (s.row.n * s.row.e) s))
        (hv (by decide)) s.draws (hsym (by decide))
      refine hsym'.trans ((readRam_scrambleCw _ _ _ _ (hcw (by decide))).trans ?_)
      exact readRam_scrambleEc _ _ _ _ (hec (by decide))

theorem softReset_readRam {s : State} (hv : s.status.busy = true → s.curOp ≠ 0x00 → Valid s) {a : Nat}
    (ha : ¬ InOutput s a) : (softReset s).readRam a = s.readRam a := by
  cases hb : s.status.busy with
  | false =>
    have h : softReset s = clearSequencer s := by simp [softReset, hb]
    rw [h]
    rfl
  | true =>
    have h : softReset s = clearSequencer ((abortOutputs s).setDraws (s.draws + 1)) := by simp [softReset, hb]
    rw [h]
    exact readRam_abortOutputs (hv hb) ha

end Sys2Proof.Machine
end

section
/-! PROOFS. The statements of 40_control.md about single steps. -/

namespace Sys2Proof.Proofs

open Sys2Proof.Machine Sys2Proof.Claims

/-- Settles O4: a CMD write is `submit` of its word, which executes SOFT_RESET always and every command while idle. -/
theorem stepRunsTheSubmittedCommand : Obligations.StepRunsTheSubmittedCommand := by
  intro s w rest i hs hd hi
  rw [step_submission hs]
  rcases hi with rfl | ⟨hb, he⟩
  · rw [eq_encode_of_decode hd]
    exact submit_softReset _
  · exact submit_idle (s := s.setScript rest) hb he hd

/-- Settles O6: `submit` refuses the word before it looks at it. -/
theorem wordsAreRefusedWhileBusyOrErr : Obligations.WordsAreRefusedWhileBusyOrErr := by
  intro s w rest hs hbusy hw
  rw [step_submission hs, submit_refused (s := s.setScript rest) hbusy (by rwa [encode_softReset])]
  rfl

/-- Settles O7: the checks of R69 are the table of R64 and `valid(CFG)`. -/
theorem legalCommandsAreAccepted : Obligations.LegalCommandsAreAccepted := by
  intro s i hi hb he hcfg hphase
  have hvalid : needsCfg i = true → s.cfg.valid = true := fun h => (valid_iff s).mpr (hcfg ((needsCfg_iff i).mp h))
  rw [exec_idle hi hb he, take_eq_accept hvalid ((phaseAllows_iff _ _).mpr hphase)]
  rfl

/-- Settles O9: the body of NOP does nothing, and its completion keeps PHASE. -/
theorem nopCompletes : Obligations.NopCompletes := by
  intro s hb hop
  rw [exec_running (i := .nop) hb (running_eq_some.mpr ⟨by decide, hop⟩)]
  rfl

/-- Settles O24: host accesses and the reset input always have a next state; the engine has one because CUR_OP names an
accepted command while BUSY. -/
theorem noStepStops : Obligations.NoStepStops := by
  intro s h
  cases hs : s.script with
  | nil =>
    obtain ⟨t, ht, hb⟩ := engineStep_next h.engine
    exact ⟨t, (step_nil hs).trans ht, fun _ _ => hb⟩
  | cons e rest =>
    have hnext : ∃ t, perform e (s.setScript rest) = .next t := by
      cases e with
      | host a => exact hostAccess_next a _
      | engine =>
        obtain ⟨t, ht, -⟩ := engineStep_next (inv_setScript h rest).engine
        exact ⟨t, ht⟩
      | hardReset => exact ⟨_, rfl⟩
    obtain ⟨t, ht⟩ := hnext
    exact ⟨t, (step_cons hs).trans ht, fun h => by cases h⟩

/-- Settles O18: the registers by `softReset_registers`, the storage by what an abort leaves. -/
theorem softResetIsPerformed : Obligations.SoftResetIsPerformed := by
  intro s hv
  refine ⟨_, rfl, ?_, fun hb => softReset_idle s hb, fun a ha => softReset_readRam hv ha⟩
  obtain ⟨hstatus, hinfo, hop, hpen, htot, hcfg, hien, hpow, hscript, -⟩ := softReset_registers s
  show respondOk (softReset s) = _
  unfold respondOk State.setResp
  rw [hstatus, hinfo, hop, hpen, htot, hcfg, hien, hpow, hscript]
  rfl

end Sys2Proof.Proofs
end

section
/-! PROOFS. Sequences of commands (R76): the bodies neither read nor write what the sequencer changes between two
commands, so a sequence of commands is the sequence of their bodies. -/

namespace Sys2Proof.Machine

open Sys2Proof.Claims

/-! ### What the sequencer changes between two bodies -/

/-- The fields the sequencer and the port write and no body reads. -/
structure Control where
  busy   : Bool
  done   : Bool
  phase  : Phase
  curOp  : Byte
  script : List Event
  resp   : Option Response

def State.control (s : State) : Control :=
  ⟨s.status.busy, s.status.done, s.status.phase, s.curOp, s.script, s.resp⟩

def State.withControl (s : State) (k : Control) : State :=
  { s with
    status := { s.status with busy := k.busy, done := k.done, phase := k.phase }
    curOp := k.curOp
    script := k.script
    resp := k.resp }

/-- The sequencer's fields of `s` with the given commands to be issued. -/
def State.facing (s : State) (is : List Instr) : Control := { s.control with script := issueAll is }

theorem State.withControl_facing (s : State) (is : List Instr) :
    s.withControl (s.facing is) = withScript s (issueAll is) := rfl

/-- The state a body ends in, changed by `f`. -/
def BodyResult.map (f : State → State) : BodyResult → BodyResult
  | .done s => .done (f s)
  | .internal opc s => .internal opc (f s)

theorem BodyResult.map_andThen {f : State → State} {body : State → BodyResult}
    (hbody : ∀ s, body (f s) = (body s).map f) (r : BodyResult) : (r.map f).andThen body = (r.andThen body).map f := by
  cases r with
  | done s => exact hbody s
  | internal opc s => rfl

section
variable (s : State) (k : Control)

theorem bodyRsEncode_withControl : bodyRsEncode (s.withControl k) = (bodyRsEncode s).map (·.withControl k) := by
  rcases bodyRsEncode_cases s with ⟨hc, h⟩ | ⟨hc, h⟩ <;> rw [h]
  exacts [if_pos hc, if_neg hc]

theorem bodyInterleave_withControl : bodyInterleave (s.withControl k) = (bodyInterleave s).map (·.withControl k) := by
  rcases bodyInterleave_cases s with ⟨hc, h⟩ | ⟨hc, h⟩ <;> rw [h]
  exacts [if_pos hc, if_neg hc]

theorem bodyPlace_withControl : bodyPlace (s.withControl k) = (bodyPlace s).map (·.withControl k) := by
  rcases bodyPlace_cases s with ⟨hlen, hset, h⟩ | ⟨hc, h⟩ <;> rw [h]
  exacts [if_pos ⟨hlen, hset⟩, if_neg hc]

/-- No body reads the sequencer's fields, and no body writes them. -/
theorem bodyOf_withControl (i : Instr) : bodyOf i (s.withControl k) = (bodyOf i s).map (·.withControl k) := by
  cases i with
  | nop | softReset | buildFunc | score | finalize => rfl
  | rsEncode => exact bodyRsEncode_withControl s k
  | interleave => exact bodyInterleave_withControl s k
  | place => exact bodyPlace_withControl s k
  | run =>
    have hscore (t : State) : bodyScore (t.withControl k) = (bodyScore t).map (·.withControl k) := rfl
    have hfinal (t : State) : bodyFinalize (t.withControl k) = (bodyFinalize t).map (·.withControl k) := rfl
    have hfunc (t : State) : bodyBuildFunc (t.withControl k) = (bodyBuildFunc t).map (·.withControl k) := rfl
    simp only [bodyOf, bodyRun, bodyRsEncode_withControl,
      BodyResult.map_andThen (fun t => bodyInterleave_withControl t k), BodyResult.map_andThen hfunc,
      BodyResult.map_andThen (fun t => bodyPlace_withControl t k), BodyResult.map_andThen hscore,
      BodyResult.map_andThen hfinal]

end

/-! ### Runs of the machine -/

theorem core_run_succ {s t : State} (h : step s = .next t) (n : Nat) :
    Sys2Proof.core.run (n + 1) s = Sys2Proof.core.run n t := by
  have h' : Sys2Proof.core.step s = .next t := h
  simp only [Host.Core.run, h']

/-- With nothing running the engine's opportunity is used up and changes nothing else. -/
theorem step_engine_idle {s : State} {rest : List Event} (hs : s.script = .engine :: rest)
    (hb : s.status.busy = false) : step s = .next (s.setScript rest) := by
  rw [step_cons hs]
  exact if_neg (by simp [hb])

/-- After a CMD write and an opportunity of the engine: the command `i` completed without error. -/
def Control.completed (k : Control) (i : Instr) : Control :=
  ⟨false, true, phaseAfter i k.phase, opcode i, k.script.drop 2, some ⟨false, none⟩⟩

/-- After the CMD write of an accepted command. -/
def Control.accepted (k : Control) (i : Instr) : Control :=
  ⟨true, false, k.phase, opcode i, k.script.drop 1, some ⟨false, none⟩⟩

/-- The CMD write of a command other than SOFT_RESET takes it, the block idle without ERR. -/
theorem step_taken {s : State} {i : Instr} {rest : List Event} (hi : i ≠ .softReset) (he : s.status.err = false)
    (hb : s.status.busy = false) (hs : s.script = submission (encode i) :: rest) :
    step s = .next (respondOk (take i (s.setScript rest))) := by
  have hd : decode (encode i) = .ok i := decode_eq_ok.mpr (splitWord_joinWord _)
  rw [step_submission hs, submit_idle (s := s.setScript rest) hb he hd, exec_idle (s := s.setScript rest) hi hb he]

/-- The CMD write of a command whose checks hold, the block idle without ERR. -/
theorem step_accepted {s : State} {k : Control} {i : Instr} {rest : List Event} (hi : i ≠ .softReset)
    (he : s.status.err = false) (hb : k.busy = false) (hs : k.script = submission (encode i) :: rest)
    (hcfg : needsCfg i = true → s.cfg.valid = true) (hphase : phaseAllows i k.phase = true) :
    step (s.withControl k) = .next (s.withControl (k.accepted i)) := by
  rw [step_taken (s := s.withControl k) hi he hb hs,
    take_eq_accept (s := (s.withControl k).setScript rest) hcfg hphase, Control.accepted, hs]
  rfl

/-- The CMD write of a command that needs a valid CFG, the block idle without ERR and CFG not valid. -/
theorem step_cfgInvalid {s : State} {i : Instr} {rest : List Event} (hi : i ≠ .softReset)
    (he : s.status.err = false) (hb : s.status.busy = false) (hs : s.script = submission (encode i) :: rest)
    (hneeds : needsCfg i = true) (hcfg : ¬ s.cfg.valid = true) :
    step s = .next (respondOk (raiseTaken .cfgInvalid (opcode i) (clearDone (s.setScript rest)))) := by
  rw [step_taken hi he hb hs]
  rcases take_cases i (s.setScript rest) with ⟨-, -, h⟩ | ⟨hv, -, -⟩ | ⟨hv, -, -⟩
  exacts [by rw [h], absurd (hv hneeds) hcfg, absurd (hv hneeds) hcfg]

/-- The opportunity of the engine with an accepted command. -/
theorem step_completes {s : State} {k : Control} {i : Instr} {rest : List Event} (hi : i ≠ .softReset)
    (hb : k.busy = true) (hop : k.curOp = opcode i) (hs : k.script = .engine :: rest) :
    step (s.withControl k) = .next (complete i (bodyOf i) (s.withControl { k with script := rest })) := by
  have hr : (s.withControl { k with script := rest }).running = some i := running_eq_some.mpr ⟨hi, hop⟩
  rw [step_cons (s := s.withControl k) hs]
  exact (engineStep_running (s := s.withControl { k with script := rest }) hb hr).trans (exec_running hb hr)

/-- From `s` the bodies of the commands lead to `t` one after the other, each accepted in the phase the one before it
left. -/
inductive BodyChain : Phase → List Instr → State → State → Prop where
  | nil {p : Phase} {s : State} : BodyChain p [] s s
  | cons {p : Phase} {i : Instr} {is : List Instr} {s t u : State} : i ≠ .softReset →
      (needsCfg i = true → s.cfg.valid = true) → phaseAllows i p = true → bodyOf i s = .done t →
      BodyChain (phaseAfter i p) is t u → BodyChain p (i :: is) s u

/-- One command issued and completed is its body. -/
theorem run_command {s t : State} {k : Control} {i : Instr} {rest : List Event} (hi : i ≠ .softReset)
    (he : s.status.err = false) (hb : k.busy = false) (hs : k.script = submission (encode i) :: .engine :: rest)
    (hcfg : needsCfg i = true → s.cfg.valid = true) (hphase : phaseAllows i k.phase = true)
    (hbody : bodyOf i s = .done t) (n : Nat) :
    Sys2Proof.core.run (n + 2) (s.withControl k) = Sys2Proof.core.run n (t.withControl (k.completed i)) := by
  have hscript : (k.accepted i).script = .engine :: rest := by rw [Control.accepted, hs]; rfl
  have hrest : k.script.drop 2 = rest := by rw [hs]; rfl
  rw [core_run_succ (step_accepted hi he hb hs hcfg hphase), core_run_succ (step_completes hi rfl rfl hscript),
    complete, bodyOf_withControl, hbody, Control.completed, hrest]
  rfl

/-- Commands issued and completed one after another are the chain of their bodies. -/
theorem run_commands {p : Phase} {is : List Instr} {s t : State} (h : BodyChain p is s t) {k : Control}
    (hp : k.phase = p) (he : s.status.err = false) (hb : k.busy = false) (hs : k.script = issueAll is) :
    Sys2Proof.core.run (2 * is.length) (s.withControl k) = .next (t.withControl (is.foldl Control.completed k)) := by
  induction h generalizing k with
  | nil => rfl
  | @cons p i is s t u hi hcfg hphase hbody _ ih =>
    subst hp
    have hout : OutputsOnly s t := by
      have := bodyOf_outputs hcfg
      rwa [hbody] at this
    have herr : t.status.err = false := by rw [hout.status]; exact he
    have hrest : (k.completed i).script = issueAll is := by rw [Control.completed, hs]; rfl
    rw [List.length_cons, Nat.mul_succ, run_command hi he hb hs hcfg hphase hbody]
    exact ih rfl herr rfl hrest

/-! ### RUN as a sequence -/

/-- The six commands of the pipeline in order (R76). -/
def pipeline : List Instr := [.rsEncode, .interleave, .buildFunc, .place, .score, .finalize]

/-- RUN's body is the six bodies in order (R75). -/
theorem bodyRun_chain {s t : State} {p : Phase} (hv : s.cfg.valid = true) (h : bodyRun s = .done t) :
    BodyChain p pipeline s t := by
  simp only [bodyRun, BodyResult.andThen_eq_done] at h
  obtain ⟨s5, ⟨s4, ⟨s3, ⟨s2, ⟨s1, h1, h2⟩, h3⟩, h4⟩, h5⟩, h6⟩ := h
  have hv1 := BodyResult.valid_of_done hv (bodyRsEncode_outputs hv) h1
  have hv2 := BodyResult.valid_of_done hv1 (bodyInterleave_outputs hv1) h2
  have hv3 := BodyResult.valid_of_done hv2 (bodyBuildFunc_outputs hv2) h3
  have hv4 := BodyResult.valid_of_done hv3 (bodyPlace_outputs hv3) h4
  have hv5 := BodyResult.valid_of_done hv4 (bodyScore_outputs s4) h5
  refine .cons (by decide) (fun _ => hv) rfl h1 (.cons (by decide) (fun _ => hv1) rfl h2 ?_)
  refine .cons (by decide) (fun _ => hv2) rfl h3 (.cons (by decide) (fun _ => hv3) rfl h4 ?_)
  exact .cons (by decide) (fun _ => hv4) rfl h5 (.cons (by decide) (fun _ => hv5) rfl h6 .nil)

/-- A RUN that leaves no ERR was accepted under a valid CFG, and its body was done. -/
theorem bodyRun_done_of_run {s t : State} {k : Control} (he : s.status.err = false) (hb : k.busy = false)
    (hs : k.script = issueAll [.run]) (hrun : Sys2Proof.core.run 2 (s.withControl k) = .next t)
    (ht : t.status.err = false) : s.cfg.valid = true ∧ ∃ u, bodyRun s = .done u := by
  have hi : Instr.run ≠ .softReset := by decide
  have hs' : k.script = submission (encode .run) :: [.engine] := hs
  have hv : s.cfg.valid = true := by
    by_contra hv
    rw [core_run_succ (step_cfgInvalid (s := s.withControl k) hi he hb hs' rfl hv),
      core_run_succ (step_engine_idle rfl hb)] at hrun
    cases hrun
    cases ht
  refine ⟨hv, ?_⟩
  rw [core_run_succ (step_accepted hi he hb hs (fun _ => hv) rfl),
    core_run_succ (step_completes (rest := []) hi rfl rfl (by rw [Control.accepted, hs]; rfl)), complete,
    bodyOf_withControl] at hrun
  cases hbody : bodyRun s with
  | done u => exact ⟨u, rfl⟩
  | internal opc u =>
    rw [bodyOf, hbody] at hrun
    cases hrun
    cases ht

end Sys2Proof.Machine
end

section
/-! PROOFS. RUN against the six commands (40_control.md R76). -/

namespace Sys2Proof.Proofs

open Sys2Proof.Machine Sys2Proof.Claims

/-- Settles O19: RUN and the six commands are the same chain of bodies. -/
theorem runEqualsTheSixCommands : Obligations.RunEqualsTheSixCommands := by
  intro s t hb he hrun ht
  rw [← s.withControl_facing] at hrun
  obtain ⟨hv, u, hu⟩ := bodyRun_done_of_run (k := s.facing [.run]) he hb rfl hrun ht
  have hone : BodyChain s.status.phase [.run] s u := .cons (by decide) (fun _ => hv) rfl hu .nil
  have hsix := bodyRun_chain (p := s.status.phase) hv hu
  have hrun' := run_commands hone (k := s.facing [.run]) rfl he hb rfl
  refine ⟨_, run_commands hsix (k := s.facing pipeline) rfl he hb rfl, ?_⟩
  cases hrun.symm.trans hrun'
  exact ⟨rfl, rfl, rfl, rfl⟩

end Sys2Proof.Proofs
end

section
/-! PROOFS. Blocks and the stream (41_ec_encoder.md R86, R89, R90): the model's lists of blocks by position, in any valid
configuration. -/

namespace Sys2Proof.Machine

open Sys2Proof.Claims

/-! ### The block table -/

/-- What R85 says of the block table, in any row: the two block kinds fill K, and with the EC codewords T; a kind with no
block has length 0. -/
theorem blockRow_relations : ∀ v ≤ 40, 1 ≤ v → ∀ l < 4, (blockRow v l).k + (blockRow v l).n * (blockRow v l).e = totalOf v ∧
    ((blockRow v l).n1 = 0 → (blockRow v l).k1 = 0) ∧ ((blockRow v l).n2 = 0 → (blockRow v l).k2 = 0) := by
  decide +kernel

theorem map_range_of_const {α : Type} {f : Nat → α} {n : Nat} {x : α} (h : ∀ i < n, f i = x) :
    (List.range n).map f = List.replicate n x := by
  rw [(List.map_eq_replicate_iff (b := x)).mpr fun i hi => h i (List.mem_range.mp hi), List.length_range]

theorem lengths_sum (row : BlockRow) : row.lengths.sum = row.k := by
  simp [BlockRow.lengths, BlockRow.k]

/-- The lengths of the blocks in order (R86). -/
theorem lengths_eq (row : BlockRow) : row.lengths = (List.range row.n).map (blockLen row) := by
  have hshort : (List.range row.n1).map (blockLen row) = List.replicate row.n1 row.k1 :=
    map_range_of_const fun b hb => if_pos hb
  have hlong : ((List.range row.n2).map (row.n1 + ·)).map (blockLen row) = List.replicate row.n2 row.k2 := by
    rw [List.map_map]
    exact map_range_of_const fun b _ => if_neg (by simp)
  rw [BlockRow.n, List.range_add, List.map_append, hshort, hlong, BlockRow.lengths]

theorem foldl_max_replicate (n k m : Nat) :
    (List.replicate n k).foldl max m = if n = 0 then m else max m k := by
  induction n generalizing m with
  | zero => rfl
  | succ n ih =>
    rw [List.replicate_succ, List.foldl_cons, ih]
    split <;> simp

/-! ### Consecutive blocks of a list -/

/-- Where block `b` starts when block `i` has length `f i`. -/
def startOf (f : Nat → Nat) (b : Nat) : Nat := ((List.range b).map f).sum

theorem startOf_succ (f : Nat → Nat) (b : Nat) : startOf f (b + 1) = startOf f b + f b := by
  simp [startOf, List.range_succ]

theorem startOf_mono (f : Nat → Nat) {a b : Nat} (h : a ≤ b) : startOf f a ≤ startOf f b := by
  induction b, h using Nat.le_induction with
  | base => exact le_rfl
  | succ b _ ih => rw [startOf_succ]; omega

/-- The end of a block is at most the end of the last. -/
theorem startOf_add_le (f : Nat → Nat) {b n : Nat} (h : b < n) : startOf f b + f b ≤ startOf f n := by
  rw [← startOf_succ]
  exact startOf_mono f h

theorem startOf_const (e n : Nat) : startOf (fun _ => e) n = n * e := by
  simp [startOf]

/-- The sublist of `len` elements from `a` on. -/
theorem take_drop_range_map {α : Type} (g : Nat → α) {a l len : Nat} (h : a + l ≤ len) :
    (((List.range len).map g).drop a).take l = (List.range l).map fun i => g (a + i) := by
  refine List.ext_getElem (by simp; omega) fun i hi hi' => ?_
  simp

/-- A list given by position splits into its blocks by position (R86). -/
theorem splitBlocks_range {g : Nat → Byte} (f : Nat → Nat) {n len : Nat} (h : startOf f n ≤ len) :
    splitBlocks ((List.range n).map f) ((List.range len).map g) =
      (List.range n).map fun b => (List.range (f b)).map fun i => g (startOf f b + i) := by
  induction n generalizing f g len with
  | zero => rfl
  | succ n ih =>
    have hstart (b : Nat) : startOf f (b + 1) = f 0 + startOf (fun i => f (i + 1)) b := by
      simp [startOf, List.range_succ_eq_map, Function.comp_def]
    have hn : f 0 + startOf (fun i => f (i + 1)) n ≤ len := hstart n ▸ h
    have hrest : ((List.range len).map g).drop (f 0) = (List.range (len - f 0)).map fun i => g (f 0 + i) := by
      refine List.ext_getElem (by simp) fun i hi hi' => ?_
      simp
    have hfirst := take_drop_range_map g (a := 0) (l := f 0) (len := len) (by omega)
    simp only [List.drop_zero] at hfirst
    simp only [List.range_succ_eq_map, List.map_cons, List.map_map, Function.comp_def, splitBlocks, hfirst, hrest,
      ih _ (show startOf (fun i => f (i + 1)) n ≤ len - f 0 by omega), hstart, Nat.add_assoc]
    rfl

/-! ### Positions of a concatenation -/

theorem length_flatMap_const {α β : Type} {f : α → List β} {e : Nat} {l : List α} (h : ∀ a ∈ l, (f a).length = e) :
    (l.flatMap f).length = l.length * e := by
  rw [List.length_flatMap, List.map_congr_left h]
  simp

/-- Position `b · e + j` of a concatenation of lists of length `e`. -/
theorem getElem?_flatMap_range {α : Type} {f : Nat → List α} {e n b j : Nat} (hf : ∀ b < n, (f b).length = e)
    (hb : b < n) (hj : j < e) : ((List.range n).flatMap f)[b * e + j]? = (f b)[j]? := by
  induction n with
  | zero => omega
  | succ n ih =>
    have hlen : ((List.range n).flatMap f).length = n * e := by
      rw [length_flatMap_const fun a ha => hf a (by simp at ha; omega), List.length_range]
    rw [List.range_succ, List.flatMap_append, List.flatMap_singleton]
    by_cases hbn : b < n
    · have hlt : b * e + j < n * e := by nlinarith
      rw [List.getElem?_append_left (by omega)]
      exact ih (fun b hb => hf b (by omega)) hbn
    · obtain rfl : b = n := by omega
      rw [List.getElem?_append_right (by omega), hlen, Nat.add_sub_cancel_left]

/-- The columns 0 … m − 1 of lists of lengths `f 0` … `f (n − 1)` have one element for each of theirs. -/
theorem length_columns {α : Type} {f : Nat → Nat} {g : Nat → Nat → α} {n m : Nat} (hf : ∀ b < n, f b ≤ m) :
    ((List.range m).flatMap fun i => (List.range n).filterMap fun b => if i < f b then some (g b i) else none).length =
      startOf f n := by
  have hcol (k : Nat) (hk : k ≤ m) : ((List.range m).map fun i => if i < k then 1 else 0).sum = k := by
    obtain ⟨d, rfl⟩ := Nat.exists_eq_add_of_le hk
    rw [List.range_add, List.map_append, List.sum_append, List.map_map, map_range_of_const fun i hi => if_pos hi]
    simp [Function.comp_def]
  rw [List.length_flatMap]
  induction n with
  | zero => simp [startOf]
  | succ n ih =>
    have hsplit (i : Nat) : ((List.range (n + 1)).filterMap fun b => if i < f b then some (g b i) else none).length =
        ((List.range n).filterMap fun b => if i < f b then some (g b i) else none).length + if i < f n then 1 else 0 := by
      rw [List.range_succ, List.filterMap_append, List.length_append]
      by_cases h : i < f n <;> simp [h]
    simp only [hsplit]
    rw [List.sum_map_add, ih fun b hb => hf b (by omega), hcol _ (hf n (by omega)), startOf_succ]

/-! ### RS_ENCODE -/

theorem startOf_blockLen (row : BlockRow) : startOf (blockLen row) row.n = row.k := by
  rw [← lengths_sum, lengths_eq]
  rfl

/-- The data codewords split into the blocks of R86. -/
theorem splitBlocks_data (s : State) :
    splitBlocks s.row.lengths s.dataCodewords = (List.range s.row.n).map (blockData s) := by
  rw [State.dataCodewords, State.readBlock_eq, lengths_eq, splitBlocks_range _ (startOf_blockLen _).le]
  refine List.map_congr_left fun b _ => List.map_congr_left fun i _ => ?_
  rw [← Nat.add_assoc]
  rfl

/-- EC codeword j of block b is at b·E + j (R89). -/
theorem ecOfBlocks_getElem? (s : State) {b j : Nat} (hb : b < s.row.n) (hj : j < s.row.e) :
    (ecOfBlocks s.row s.dataCodewords)[b * s.row.e + j]? = (rsRemainder (blockData s b) s.row.e)[j]? := by
  rw [ecOfBlocks, splitBlocks_data, List.flatMap_map]
  exact getElem?_flatMap_range (fun _ _ => rsRemainder_length _ _) hb hj

/-! ### INTERLEAVE -/

theorem blockLen_le (row : BlockRow) (b : Nat) : blockLen row b ≤ max row.k1 row.k2 := by
  unfold blockLen
  split <;> omega

theorem blockData_getElem? (s : State) (b i : Nat) : (blockData s b)[i]? =
    if i < blockLen s.row b then some (s.readRam (0x01000 + blockStart s.row b + i)) else none := by
  by_cases h : i < blockLen s.row b <;> simp [blockData, h]

/-- The EC codewords split into the N blocks of E (R90). -/
theorem splitBlocks_ec (s : State) : splitBlocks (List.replicate s.row.n s.row.e) s.ecCodewords =
    (List.range s.row.n).map fun b => (List.range s.row.e).map fun i => s.readRam (0x02000 + (b * s.row.e + i)) := by
  rw [State.ecCodewords, State.readBlock_eq, ← map_range_of_const fun _ _ => rfl,
    splitBlocks_range _ (startOf_const _ _).le]
  simp only [startOf_const]
  rfl

/-- Under a valid CFG the longest block has max(K1, K2) data codewords. -/
theorem foldl_max_lengths {s : State} (hv : Valid s) :
    s.row.lengths.foldl max 0 = max s.row.k1 s.row.k2 := by
  obtain ⟨-, h1, h2⟩ := blockRow_relations _ hv.2 hv.1 _ s.cfg.ecl.isLt
  simp only [BlockRow.lengths, List.foldl_append, foldl_max_replicate]
  split <;> split <;> simp_all [State.row, State.version]

/-- The model's stream is the stream of R90. -/
theorem interleaveBlocks_eq_streamOf {s : State} (hv : Valid s) :
    interleaveBlocks s.row s.dataCodewords s.ecCodewords = streamOf s fun k => s.readRam (0x02000 + k) := by
  rw [interleaveBlocks, streamOf, foldl_max_lengths hv, splitBlocks_data, splitBlocks_ec]
  refine congrArg₂ _ (List.flatMap_congr fun i _ => ?_) (List.flatMap_congr fun i hi => ?_)
  · rw [column, List.filterMap_map]
    exact List.filterMap_congr fun b _ => blockData_getElem? s b i
  · rw [column, List.filterMap_map, ← List.filterMap_eq_map]
    refine List.filterMap_congr fun b _ => ?_
    simp [List.mem_range.mp hi]

/-- The stream has T codewords (R85, R90). -/
theorem streamOf_length {s : State} (hv : Valid s) (ec : Nat → Byte) : (streamOf s ec).length = s.total := by
  obtain ⟨htotal, -, -⟩ := blockRow_relations _ hv.2 hv.1 _ s.cfg.ecl.isLt
  rw [streamOf, List.length_append, length_columns fun b _ => blockLen_le _ b, startOf_blockLen,
    length_flatMap_const (e := s.row.n) fun i _ => by simp, List.length_range, Nat.mul_comm]
  exact htotal

/-- The stream depends only on the configuration, DBUF[0 .. K−1] and the first N·E EC codewords. -/
theorem streamOf_congr {s t : State} {ec ec' : Nat → Byte} (hcfg : t.cfg = s.cfg)
    (hdata : ∀ i < s.row.k, t.readRam (0x01000 + i) = s.readRam (0x01000 + i))
    (hec : ∀ k < s.row.n * s.row.e, ec' k = ec k) : streamOf t ec' = streamOf s ec := by
  have hrow : t.row = s.row := by rw [State.row, State.version, hcfg]; rfl
  rw [streamOf, streamOf, hrow]
  refine congrArg₂ _ (List.flatMap_congr fun i _ => List.filterMap_congr fun b hb => ?_)
    (List.flatMap_congr fun i hi => List.map_congr_left fun b hb => hec _ ?_)
  · split
    next h =>
      have hend := startOf_add_le (blockLen s.row) (List.mem_range.mp hb)
      rw [startOf_blockLen] at hend
      have hlt : blockStart s.row b + i < s.row.k := lt_of_lt_of_le (Nat.add_lt_add_left h _) hend
      rw [Nat.add_assoc, hdata _ hlt]
    next => rfl
  · have hi' := List.mem_range.mp hi
    have hb' := List.mem_range.mp hb
    nlinarith

/-! ### The two bodies -/

/-- RS_ENCODE's check holds in every row of the table (R85). -/
theorem bodyRsEncode_done {s : State} (hv : Valid s) :
    bodyRsEncode s = .done (s.storeBlock Config.ecbufBase (ecOfBlocks s.row s.dataCodewords)) := by
  obtain ⟨htotal, -, -⟩ := blockRow_relations _ hv.2 hv.1 _ s.cfg.ecl.isLt
  rcases bodyRsEncode_cases s with ⟨-, h⟩ | ⟨hne, -⟩
  · exact h
  · rw [lengths_sum] at hne
    exact absurd htotal hne

/-- INTERLEAVE's check holds: the stream of R90 has T codewords. -/
theorem bodyInterleave_done {s : State} (hv : Valid s) :
    bodyInterleave s = .done (s.storeBlock Config.cwbufBase (streamOf s fun k => s.readRam (0x02000 + k))) := by
  rcases bodyInterleave_cases s with ⟨-, h⟩ | ⟨hne, -⟩ <;> rw [interleaveBlocks_eq_streamOf hv] at *
  · exact h
  · exact absurd (streamOf_length hv _) hne

/-- A byte of a stored block by its position in the block. -/
theorem getElem?_readRam_storeBlock (s : State) (base : Nat) {bs : List Byte} {i : Nat} (hi : i < bs.length) :
    bs[i]? = some ((s.storeBlock base bs).readRam (base + i)) := by
  rw [State.readRam_storeBlock, if_pos (by omega), Nat.add_sub_cancel_left]
  simp [hi]

end Sys2Proof.Machine
end

section
/-! PROOFS. PLACE on the symbol BUILD_FUNC drew: the traversal visits each position outside the timing column once, and
the cells that are no function modules are as many as the bits placed (42_matrix_builder.md R101 to R103). -/

namespace Sys2Proof.Machine

open Sys2Proof.Claims

/-! ### The traversal -/

/-- Every cell of the column pairs in the order of R102, function modules included. -/
def traversal (n : Nat) : List (Nat × Nat) := (zigzagPairs n (n - 1) true).flatMap (pairCells n)

theorem zigzag_eq (n : Nat) (g : Grid) : zigzag n g = (traversal n).filter fun p => !(g.get p.1 p.2).func := rfl

/-- The columns in the order of the pairs: every one but the timing column, from right to left (R102). -/
theorem zigzagPairs_columns : ∀ v ≤ 40, (zigzagPairs (sideOf v) (sideOf v - 1) true).flatMap (fun p => [p.1, p.1 - 1]) =
    (List.range (sideOf v)).reverse.filter (· ≠ 6) := by
  decide +kernel

/-- A column pair visits the n cells of its two columns, upward or downward. -/
theorem pairCells_perm (n : Nat) (p : Nat × Bool) :
    (pairCells n p).Perm ([p.1, p.1 - 1].flatMap fun c => (List.range n).map fun r => (r, c)) := by
  obtain ⟨right, up⟩ := p
  have hrows : ((List.range n).map fun v => if up then n - 1 - v else v).Perm (List.range n) := by
    cases up with
    | false => simp
    | true =>
      have h := List.reverse_range' (s := 0) (n := n)
      rw [Nat.zero_add, ← List.range_eq_range'] at h
      exact h ▸ List.reverse_perm _
  have hcol (c : Nat) : ((List.range n).flatMap fun v => [((if up then n - 1 - v else v), c)]).Perm
      ((List.range n).map fun r => (r, c)) := by
    have := hrows.map fun r => (r, c)
    rwa [List.map_map, List.map_eq_flatMap] at this
  rw [List.flatMap_cons, List.flatMap_singleton]
  exact (List.flatMap_append_perm _ _ _).symm.trans ((hcol right).append (hcol (right - 1)))

theorem mem_positions {m : Nat} {p : Nat × Nat} : p ∈ positions m ↔ p.1 < m ∧ p.2 < m := by
  obtain ⟨r, c⟩ := p
  simp [positions]

theorem positions_nodup (m : Nat) : (positions m).Nodup := List.nodup_range.product List.nodup_range

/-- The traversal visits each position outside the timing column once. -/
theorem traversal_perm {v : Nat} (hv : v ≤ 40) :
    (traversal (sideOf v)).Perm ((positions (sideOf v)).filter fun p => p.2 ≠ 6) := by
  have hcols : (traversal (sideOf v)).Perm (((List.range (sideOf v)).reverse.filter (· ≠ 6)).flatMap fun c =>
      (List.range (sideOf v)).map fun r => (r, c)) := by
    rw [← zigzagPairs_columns v hv, List.flatMap_assoc]
    exact List.Perm.flatMap_left _ fun p _ => pairCells_perm _ p
  refine hcols.trans ((List.perm_ext_iff_of_nodup ?_ ((positions_nodup _).filter _)).mpr fun p => ?_)
  · have hprod := ((List.nodup_reverse.mpr (List.nodup_range (n := sideOf v))).filter (· ≠ 6)).product
      (List.nodup_range (n := sideOf v))
    simpa only [SProd.sprod, List.product, List.map_flatMap, List.map_map, Function.comp_def, Prod.swap_prod_mk]
      using hprod.map Prod.swap_injective
  · obtain ⟨r, c⟩ := p
    simp [mem_positions, and_comm, and_left_comm, and_assoc]

/-! ### The function modules -/

/-- One of the drawings falls on (r, c). -/
def Hits (ds : List Draw) (r c : Nat) : Prop := ∃ d ∈ ds, d.r = r ∧ d.c = c

theorem hits_append {ds es : List Draw} {r c : Nat} : Hits (ds ++ es) r c ↔ Hits ds r c ∨ Hits es r c := by
  simp only [Hits, List.mem_append, or_and_right, exists_or]

theorem hits_flatMap {α : Type} {l : List α} {f : α → List Draw} {r c : Nat} :
    Hits (l.flatMap f) r c ↔ ∃ a ∈ l, Hits (f a) r c := by
  simp only [Hits, List.mem_flatMap]
  exact ⟨fun ⟨d, ⟨a, ha, hd⟩, h⟩ => ⟨a, ha, d, hd, h⟩, fun ⟨a, ha, d, hd, h⟩ => ⟨d, ⟨a, ha, hd⟩, h⟩⟩

/-- A cell is a function module after drawing function modules exactly when it was one or was drawn. -/
theorem func_foldl_drawOne {n : Nat} {ds : List Draw} (hfn : ∀ d ∈ ds, d.cell.IsFn) {g : Grid} (hg : g.Square n)
    {r c : Nat} (hr : r < n) (hc : c < n) :
    ((ds.foldl (drawOne n) g).get r c).func = true ↔ (g.get r c).func = true ∨ Hits ds r c := by
  induction ds generalizing g with
  | nil => simp [Hits]
  | cons d ds ih =>
    rw [List.foldl_cons, ih (fun e he => hfn e (by simp [he])) (square_drawOne g d hg)]
    have hone : ((drawOne n g d).get r c).func = true ↔ (g.get r c).func = true ∨ (d.r = r ∧ d.c = c) := by
      have hd := (hfn d (by simp)).2
      unfold drawOne
      split
      next hin =>
        rw [Grid.put, Grid.get_update hg (by omega) (by omega)]
        split
        next heq => simp [hd, show d.r = r ∧ d.c = c by omega]
        next hne => simp [show ¬ (d.r = r ∧ d.c = c) by omega]
      next hout => simp [show ¬ (d.r = r ∧ d.c = c) by omega]
    rw [hone, or_assoc]
    simp [Hits]

/-- BUILD_FUNC makes function modules exactly where it draws (R91, R99). -/
theorem funcGrid_func (v : Nat) {r c : Nat} (hr : r < sideOf v) (hc : c < sideOf v) :
    ((funcGrid v).get r c).func = true ↔ Hits (funcDraws v) r c := by
  rw [funcGrid, func_foldl_drawOne (fun d hd => funcDraws_isFn hd) (Grid.square_tabulate _ _) hr hc,
    Grid.get_tabulate _ hr hc]
  simp [Cell.unset]

/-- The k × k positions from (r, c) on. -/
def spotsFrom (k r c : Nat) : List (Nat × Nat) :=
  (List.range k).flatMap fun i => (List.range k).map fun j => (r + i, c + j)

theorem mem_spotsFrom {k r₀ c₀ r c : Nat} :
    (r, c) ∈ spotsFrom k r₀ c₀ ↔ (r₀ ≤ r ∧ r < r₀ + k) ∧ c₀ ≤ c ∧ c < c₀ + k := by
  simp only [spotsFrom, List.mem_flatMap, List.mem_map, List.mem_range, Prod.mk.injEq]
  constructor
  · rintro ⟨i, hi, j, hj, rfl, rfl⟩
    omega
  · rintro ⟨hr, hc⟩
    exact ⟨r - r₀, by omega, c - c₀, by omega, by omega, by omega⟩

/-- `l` as integers, the way the model's lists of drawings read a list of numbers. -/
theorem mem_map_cast {l : List Nat} {x : Int} : (x ∈ do let a ← l; pure (a : Int)) ↔ ∃ i ∈ l, (i : Int) = x := by
  simp [eq_comm]

theorem mem_offsets {k : Nat} {x : Int} : x ∈ offsets k ↔ -k ≤ x ∧ x ≤ k := by
  simp only [offsets, List.mem_map, mem_map_cast, List.mem_range]
  constructor
  · rintro ⟨_, ⟨i, hi, rfl⟩, rfl⟩
    omega
  · intro h
    exact ⟨x + k, ⟨(x + k).toNat, by omega, by omega⟩, by omega⟩

theorem hits_squareDraws {k : Nat} {dark : Nat → Bool} {cr cc : Int} {r c : Nat} :
    Hits (squareDraws k dark cr cc) r c ↔ (cr - k ≤ r ∧ r ≤ cr + k) ∧ cc - k ≤ c ∧ c ≤ cc + k := by
  simp only [Hits, squareDraws, List.mem_flatMap, List.mem_map, mem_offsets]
  constructor
  · rintro ⟨_, ⟨dr, hdr, dc, hdc, rfl⟩, hr, hc⟩
    simp only at hr hc
    omega
  · rintro ⟨hr, hc⟩
    exact ⟨_, ⟨r - cr, by omega, c - cc, by omega, rfl⟩, by simp, by simp⟩

theorem hits_timingDraws {n r c : Nat} (hr : r < n) (hc : c < n) : Hits (timingDraws n) r c ↔ r = 6 ∨ c = 6 := by
  rw [timingDraws, hits_flatMap]
  simp only [Hits, List.mem_pair, mem_map_cast, List.mem_range, exists_eq_or_imp, exists_eq_left]
  constructor
  · rintro ⟨_, ⟨i, -, rfl⟩, h | h⟩ <;> omega
  · rintro (rfl | rfl)
    exacts [⟨c, ⟨c, hc, rfl⟩, .inl ⟨rfl, rfl⟩⟩, ⟨r, ⟨r, hr, rfl⟩, .inr ⟨rfl, rfl⟩⟩]

theorem hits_reserveDraws {cells : List (Nat × Nat × Nat)} {r c : Nat} :
    Hits (cells.map reserveDraw) r c ↔ (r, c) ∈ cells.map Prod.snd := by
  simp only [Hits, List.mem_map, reserveDraw]
  constructor
  · rintro ⟨_, ⟨p, hp, rfl⟩, hr, hc⟩
    exact ⟨p, hp, Prod.ext (by simpa using hr) (by simpa using hc)⟩
  · rintro ⟨p, hp, h⟩
    exact ⟨_, ⟨p, hp, rfl⟩, by simp [h], by simp [h]⟩

/-- The positions BUILD_FUNC draws on, some of them more than once. -/
def funcSpots (v : Nat) : List (Nat × Nat) :=
  let n := sideOf v
  ((List.range n).map fun i => (6, i)) ++ (((List.range n).map fun i => (i, 6)) ++
    (spotsFrom 8 0 0 ++ (spotsFrom 8 0 (n - 8) ++ (spotsFrom 8 (n - 8) 0 ++
    ((alignCentres (alignOf v)).flatMap (fun p => spotsFrom 5 (p.1 - 2) (p.2 - 2)) ++
    ((formatCells n).map Prod.snd ++ ((versionCells v).map Prod.snd ++ [(n - 8, 8)])))))))

/-- The coordinates of the alignment patterns lie inside the timing column and its mirror image (R94). -/
theorem alignOf_bounds : ∀ v ≤ 40, ∀ p ∈ alignOf v, 6 ≤ p ∧ p + 7 ≤ sideOf v := by decide +kernel

theorem mem_of_mem_alignCentres {ps : List Nat} {q : Nat × Nat} (h : q ∈ alignCentres ps) : q.1 ∈ ps ∧ q.2 ∈ ps := by
  obtain ⟨i, hi, hq⟩ := List.mem_flatMap.mp h
  obtain ⟨j, hj, hq⟩ := List.mem_filterMap.mp hq
  have hget {k : Nat} (hk : k ∈ List.range ps.length) : ps.getD k 0 ∈ ps := by
    rw [List.getD_eq_getElem _ _ (List.mem_range.mp hk)]
    exact List.getElem_mem _
  split at hq <;> cases hq
  exact ⟨hget hi, hget hj⟩

theorem hits_alignDraws {v : Nat} (hv : v ≤ 40) {r c : Nat} : Hits (alignDraws v) r c ↔
    ∃ p ∈ alignCentres (alignOf v), (r, c) ∈ spotsFrom 5 (p.1 - 2) (p.2 - 2) := by
  rw [alignDraws, hits_flatMap]
  refine exists_congr fun p => and_congr_right fun hp => ?_
  obtain ⟨hp1, hp2⟩ := mem_of_mem_alignCentres hp
  have h1 := alignOf_bounds v hv _ hp1
  have h2 := alignOf_bounds v hv _ hp2
  rw [hits_squareDraws, mem_spotsFrom]
  omega

theorem hits_finderDraws {n r c : Nat} (hn : 8 ≤ n) (hr : r < n) (hc : c < n) : Hits (finderDraws n) r c ↔
    (r, c) ∈ spotsFrom 8 0 0 ∨ (r, c) ∈ spotsFrom 8 0 (n - 8) ∨ (r, c) ∈ spotsFrom 8 (n - 8) 0 := by
  simp only [finderDraws, hits_append, hits_squareDraws, mem_spotsFrom]
  omega

theorem hits_singleton {d : Draw} {r c : Nat} : Hits [d] r c ↔ d.r = r ∧ d.c = c := by
  simp [Hits]

/-- The positions drawn on, as natural numbers (R91 to R99). -/
theorem hits_funcDraws {v : Nat} (hv : v ≤ 40) {r c : Nat} (hr : r < sideOf v) (hc : c < sideOf v) :
    Hits (funcDraws v) r c ↔ (r, c) ∈ funcSpots v := by
  have hn : 17 ≤ sideOf v := by simp only [sideOf]; omega
  have hdark : ((sideOf v : Int) - 8 = r ∧ (8 : Int) = c) ↔ r = sideOf v - 8 ∧ c = 8 := by omega
  have h6r : r = 6 ↔ (r, c) ∈ (List.range (sideOf v)).map fun i => (6, i) := by
    simp [hc, eq_comm]
  have h6c : c = 6 ↔ (r, c) ∈ (List.range (sideOf v)).map fun i => (i, 6) := by
    simp [hr, eq_comm]
  simp only [funcDraws, funcSpots, hits_append, hits_timingDraws hr hc, hits_finderDraws (by omega) hr hc,
    hits_alignDraws hv, hits_reserveDraws, hits_singleton, hdark, List.mem_append, List.mem_flatMap,
    List.mem_singleton, Prod.mk.injEq, ← h6r, ← h6c, or_assoc]

/-- The timing row and column are function modules (R92). -/
theorem funcGrid_timing (v : Nat) {r c : Nat} (hr : r < sideOf v) (hc : c < sideOf v) (h : r = 6 ∨ c = 6) :
    ((funcGrid v).get r c).func = true := by
  rw [funcGrid_func v hr hc]
  simp only [funcDraws, hits_append, hits_timingDraws hr hc]
  exact .inl (.inl (.inl (.inl (.inl h))))

/-! ### Distinct positions -/

/-- How many numbers of the list are distinct and not yet in the set of the bits of `seen`. -/
def freshCount : List Nat → Nat → Nat
  | [], _ => 0
  | k :: ks, seen => (if seen.testBit k then 0 else 1) + freshCount ks (seen ||| 1 <<< k)

theorem freshCount_eq (ks : List Nat) (seen : Nat) :
    freshCount ks seen = (ks.toFinset.filter fun k => seen.testBit k = false).card := by
  induction ks generalizing seen with
  | nil => rfl
  | cons k ks ih =>
    have hrest : (ks.toFinset.filter fun x => (seen ||| 1 <<< k).testBit x = false) =
        (ks.toFinset.filter fun x => seen.testBit x = false).erase k := by
      ext x
      simp only [Finset.mem_filter, Finset.mem_erase, Nat.testBit_or, Nat.one_shiftLeft, Nat.testBit_two_pow]
      rcases eq_or_ne k x with rfl | h
      · simp
      · simp [h, h.symm]
    rw [freshCount, ih, hrest, List.toFinset_cons, Finset.filter_insert]
    by_cases h : seen.testBit k = true
    · rw [if_pos h, if_neg (by simp [h]), Finset.erase_eq_of_notMem (by simp [h]), Nat.zero_add]
    · rw [if_neg h, if_pos (by simpa using h), ← Finset.card_erase_add_one (Finset.mem_insert_self k _),
        Finset.erase_insert_eq_erase, Nat.add_comm]

/-! ### The number of function modules -/

theorem formatCells_lt {n : Nat} (hn : 21 ≤ n) {p : Nat × Nat × Nat} (h : p ∈ formatCells n) :
    p.2.1 < n ∧ p.2.2 < n := by
  rcases List.mem_append.mp h with h | h
  · have hA : ∀ p ∈ formatCellsA, p.2.1 < 21 ∧ p.2.2 < 21 := by decide
    have := hA p h
    omega
  · simp only [formatCellsB, List.mem_append, List.mem_map, List.mem_range] at h
    rcases h with ⟨i, hi, rfl⟩ | ⟨i, hi, rfl⟩ <;> simp only <;> omega

theorem versionCells_lt {v : Nat} {p : Nat × Nat × Nat} (h : p ∈ versionCells v) :
    p.2.1 < sideOf v ∧ p.2.2 < sideOf v := by
  unfold versionCells at h
  split at h
  · simp only [List.mem_append, List.mem_map, List.mem_range] at h
    rcases h with ⟨i, hi, rfl⟩ | ⟨i, hi, rfl⟩ <;> simp only [sideOf] <;> omega
  · cases h

/-- Every position drawn on lies in the symbol. -/
theorem funcSpots_lt {v : Nat} (h1 : 1 ≤ v) (hv : v ≤ 40) {r c : Nat} (h : (r, c) ∈ funcSpots v) :
    r < sideOf v ∧ c < sideOf v := by
  have hn : 21 ≤ sideOf v := by simp only [sideOf]; omega
  simp only [funcSpots, List.mem_append, List.mem_flatMap, List.mem_map, List.mem_range, mem_spotsFrom,
    List.mem_singleton, Prod.mk.injEq] at h
  rcases h with ⟨i, hi, rfl, rfl⟩ | ⟨i, hi, rfl, rfl⟩ | h | h | h | ⟨p, hp, h⟩ | ⟨p, hp, h⟩ | ⟨p, hp, h⟩ | h
  · omega
  · omega
  · omega
  · omega
  · omega
  · obtain ⟨hp1, hp2⟩ := mem_of_mem_alignCentres hp
    have hrow := alignOf_bounds v hv _ hp1
    have hcol := alignOf_bounds v hv _ hp2
    omega
  · simpa only [h] using formatCells_lt hn hp
  · simpa only [h] using versionCells_lt hp
  · omega

/-- The function modules are the distinct positions drawn on. -/
theorem length_filter_funcGrid {v : Nat} (h1 : 1 ≤ v) (hv : v ≤ 40) :
    ((positions (sideOf v)).filter fun p => ((funcGrid v).get p.1 p.2).func).length =
      freshCount ((funcSpots v).map fun p => 256 * p.1 + p.2) 0 := by
  have hn : sideOf v ≤ 256 := by simp only [sideOf]; omega
  have hinj : ((positions (sideOf v)).filter fun p => ((funcGrid v).get p.1 p.2).func).map
      (fun p => 256 * p.1 + p.2) |>.Nodup := by
    refine List.Nodup.map_on (fun p hp q hq h => ?_) ((positions_nodup _).filter _)
    have h1 := mem_positions.mp (List.mem_of_mem_filter hp)
    have h2 := mem_positions.mp (List.mem_of_mem_filter hq)
    exact Prod.ext (by omega) (by omega)
  have hmem : (((positions (sideOf v)).filter fun p => ((funcGrid v).get p.1 p.2).func).map
      (fun p => 256 * p.1 + p.2)).toFinset = ((funcSpots v).map fun p => 256 * p.1 + p.2).toFinset := by
    ext k
    simp only [List.mem_toFinset, List.mem_map, List.mem_filter]
    refine exists_congr fun p => and_congr_left fun _ => ?_
    obtain ⟨r, c⟩ := p
    constructor
    · rintro ⟨hp, hf⟩
      obtain ⟨hr, hc⟩ := mem_positions.mp hp
      exact (hits_funcDraws hv hr hc).mp ((funcGrid_func v hr hc).mp hf)
    · intro h
      obtain ⟨hr, hc⟩ := funcSpots_lt h1 hv h
      exact ⟨mem_positions.mpr ⟨hr, hc⟩, (funcGrid_func v hr hc).mpr ((hits_funcDraws hv hr hc).mpr h)⟩
  rw [freshCount_eq, ← hmem, Finset.filter_true_of_mem (by simp), List.toFinset_card_of_nodup hinj, List.length_map]

/-- The light positions and the function positions fill the symbol: the count of R82 and R101, version by version. -/
theorem freshCount_funcSpots : ∀ v ≤ 40, 1 ≤ v → freshCount ((funcSpots v).map fun p => 256 * p.1 + p.2) 0 +
    (8 * totalOf v + remOf v) = sideOf v * sideOf v := by
  decide +kernel

/-- After BUILD_FUNC 8·T + REM cells are no function modules (R101). -/
theorem funcGrid_light_count {v : Nat} (h1 : 1 ≤ v) (hv : v ≤ 40) :
    ((positions (sideOf v)).filter fun p => !((funcGrid v).get p.1 p.2).func).length = 8 * totalOf v + remOf v := by
  have hsides : (positions (sideOf v)).length = sideOf v * sideOf v := by
    rw [positions, length_flatMap_const (e := sideOf v) fun _ _ => by simp, List.length_range]
  have hsplit := List.length_eq_length_filter_add (l := positions (sideOf v))
    fun p => ((funcGrid v).get p.1 p.2).func
  have hfunc := length_filter_funcGrid h1 hv
  have hcount := freshCount_funcSpots v hv h1
  omega

/-- PLACE's order after BUILD_FUNC has one cell for each bit it places (R101, R103). -/
theorem zigzag_funcGrid_length {v : Nat} (h1 : 1 ≤ v) (hv : v ≤ 40) :
    (zigzag (sideOf v) (funcGrid v)).length = 8 * totalOf v + remOf v := by
  have hperm := (traversal_perm hv).filter fun p => !((funcGrid v).get p.1 p.2).func
  rw [zigzag_eq, hperm.length_eq, List.filter_filter, ← funcGrid_light_count h1 hv]
  refine congrArg List.length (List.filter_congr fun p hp => ?_)
  obtain ⟨hr, hc⟩ := mem_positions.mp hp
  by_cases h6 : p.2 = 6
  · have := funcGrid_timing v hr hc (.inr h6)
    simp [this]
  · simp [h6]

end Sys2Proof.Machine
end

section
/-! PROOFS. RUN (R75): each of its six checks holds, so it completes from any storage contents. -/

namespace Sys2Proof.Machine

open Sys2Proof.Claims

/-! ### PLACE sets every cell -/

theorem placedBits_length (stream : List Byte) (rem : Nat) : (placedBits stream rem).length = 8 * stream.length + rem := by
  rw [placedBits, List.length_append, length_flatMap_const (e := 8) fun _ _ => by simp [codewordBits],
    List.length_replicate, Nat.mul_comm]

theorem placeBits_cons (g : Grid) (p : Nat × Nat) (order : List (Nat × Nat)) (b : Bool) (bits : List Bool) :
    placeBits g (p :: order) (b :: bits) = placeBits (g.put p.1 p.2 (Cell.data b)) order bits := rfl

/-- PLACE unsets no cell. -/
theorem placeBits_keeps_set {g : Grid} {r c : Nat} (h : (g.get r c).set = true) (order : List (Nat × Nat))
    (bits : List Bool) : ((placeBits g order bits).get r c).set = true :=
  Grid.get_foldl (P := fun x => x.set = true) _ _
    (fun _ _ _ hg => Grid.get_update_of (P := fun x => x.set = true) (fun _ _ => rfl) hg _ _) h

/-- PLACE sets every cell of its order when there is a bit for each. -/
theorem placeBits_sets {n : Nat} {g : Grid} (hg : g.Square n) {order : List (Nat × Nat)} {bits : List Bool}
    (hlen : order.length ≤ bits.length) {r c : Nat} (hr : r < n) (hc : c < n) (h : (r, c) ∈ order) :
    ((placeBits g order bits).get r c).set = true := by
  induction order generalizing g bits with
  | nil => cases h
  | cons p order ih =>
    cases bits with
    | nil => simp at hlen
    | cons b bits =>
      rw [placeBits_cons]
      rcases List.mem_cons.mp h with rfl | h
      · refine placeBits_keeps_set ?_ _ _
        rw [Grid.put, Grid.get_update hg hr hc, if_pos ⟨rfl, rfl⟩]
        rfl
      · exact ih (Grid.square_update hg _ _ _) (by simpa using hlen) h

theorem Grid.allSet_of_get {n : Nat} {g : Grid} (hg : g.Square n)
    (h : ∀ r c, r < n → c < n → (g.get r c).set = true) : g.allSet = true := by
  obtain ⟨hrows, hcols⟩ := hg
  refine List.all_eq_true.mpr fun row hrow => List.all_eq_true.mpr fun x hx => ?_
  obtain ⟨r, hr, rfl⟩ := List.mem_iff_getElem.mp hrow
  obtain ⟨c, hc, rfl⟩ := List.mem_iff_getElem.mp hx
  have := h r c (hrows ▸ hr) (hcols _ hrow ▸ hc)
  simpa [Grid.get, List.getD, hr, hc] using this

theorem Grid.ext_of_square {n : Nat} {g g' : Grid} (hg : g.Square n) (hg' : g'.Square n)
    (h : ∀ r c, r < n → c < n → g.get r c = g'.get r c) : g = g' := by
  refine List.ext_getElem (hg.1.trans hg'.1.symm) fun r hr hr' => ?_
  have hrow := hg.2 _ (List.getElem_mem hr)
  have hrow' := hg'.2 _ (List.getElem_mem hr')
  refine List.ext_getElem (hrow.trans hrow'.symm) fun c hc hc' => ?_
  have := h r c (hg.1 ▸ hr) (hrow ▸ hc)
  simpa [Grid.get, List.getD, hr, hr', hc, hc'] using this

/-- The symbol BUILD_FUNC drew, as PLACE loads it. -/
theorem State.Drawn.loadGrid_eq {s : State} (h : s.Drawn) : s.loadGrid s.side = funcGrid s.version :=
  Grid.ext_of_square (s.square_loadGrid _) (square_funcGrid _) fun r c hr hc => by
    rw [State.get_loadGrid s hr hc, h r c hr hc]

/-- A cell outside the timing column that is no function module is in PLACE's order. -/
theorem mem_zigzag {v : Nat} (hv : v ≤ 40) {g : Grid} {r c : Nat} (hr : r < sideOf v) (hc : c < sideOf v) (h6 : c ≠ 6)
    (hf : (g.get r c).func = false) : (r, c) ∈ zigzag (sideOf v) g := by
  rw [zigzag_eq, List.mem_filter, (traversal_perm hv).mem_iff, List.mem_filter, mem_positions]
  exact ⟨⟨⟨hr, hc⟩, by simpa using h6⟩, by simp [hf]⟩

/-- PLACE's checks hold on the symbol BUILD_FUNC drew (R103, R104). -/
theorem bodyPlace_done {s : State} (hv : Valid s) (hdrawn : s.Drawn) :
    bodyPlace s = .done (s.storeGrid (placedGrid s)) := by
  have hlen : (zigzag s.side (s.loadGrid s.side)).length = 8 * s.total + remOf s.version := by
    rw [hdrawn.loadGrid_eq]
    exact zigzag_funcGrid_length hv.1 hv.2
  have hset : (placedGrid s).allSet = true := by
    refine Grid.allSet_of_get (square_placedGrid s) fun r c hr hc => ?_
    have hcell : (s.loadGrid s.side).get r c = (funcGrid s.version).get r c := by rw [hdrawn.loadGrid_eq]
    cases hf : ((s.loadGrid s.side).get r c).func with
    | true =>
      refine placeBits_keeps_set ?_ _ _
      by_contra hs
      have hplanes := (funcGrid_planesOk s.version hr hc).2
      rw [← hcell, hf] at hplanes
      exact absurd (hplanes (by simpa using hs)) (by decide)
    | false =>
      have h6 : c ≠ 6 := by
        rintro rfl
        rw [hcell, funcGrid_timing s.version hr hc (.inr rfl)] at hf
        cases hf
      refine placeBits_sets (s.square_loadGrid _) ?_ hr hc (mem_zigzag hv.2 hr hc h6 hf)
      rw [placedBits_length, State.stream, State.readBlock_length, hlen]
  rcases bodyPlace_cases s with ⟨-, -, h⟩ | ⟨hno, -⟩
  exacts [h, absurd ⟨hlen, hset⟩ hno]

/-! ### The selected mask -/

/-- A scan for the least minimum keeps the least minimum of what it has seen. -/
theorem foldl_least {n : Nat} (f : Fin n → Word) (l : List (Fin n)) (b best : Fin n) (h : (b :: l).Pairwise (· < ·))
    (hbest : l.foldl (fun best k => if f k < f best then k else best) b = best) :
    ∀ k ∈ b :: l, f best ≤ f k ∧ (k < best → f best < f k) := by
  induction l generalizing b with
  | nil =>
    obtain rfl : b = best := hbest
    simp
  | cons x l ih =>
    obtain ⟨hb, hx, hl⟩ : (∀ k ∈ x :: l, b < k) ∧ (∀ k ∈ l, x < k) ∧ l.Pairwise (· < ·) := by
      simpa only [List.pairwise_cons] using h
    have hbx : b < x := hb x (by simp)
    rw [List.foldl_cons] at hbest
    split at hbest
    next hlt =>
      have hmin := ih x (List.pairwise_cons.mpr ⟨hx, hl⟩) hbest
      obtain ⟨hbestx, -⟩ := hmin x (by simp)
      rintro k (_ | ⟨_, hk⟩)
      · simp only [BitVec.lt_def, BitVec.le_def] at hlt hbestx ⊢
        omega
      · exact hmin k hk
    next hge =>
      have hmin := ih b (List.pairwise_cons.mpr ⟨fun k hk => hb k (by simp [hk]), hl⟩) hbest
      obtain ⟨hbestb, hstrict⟩ := hmin b (by simp)
      rintro k (_ | ⟨_, _ | ⟨_, hk⟩⟩)
      · exact ⟨hbestb, hstrict⟩
      · simp only [BitVec.lt_def, BitVec.le_def] at hge hbestb hstrict ⊢
        exact ⟨by omega, fun h => by have := hstrict (hbx.trans h); omega⟩
      · exact hmin k (List.mem_cons_of_mem _ hk)

/-- The selected mask is the least one with the smallest total (R114). -/
theorem selectMask_isBest (t : Vector Word 8) : IsBest t (selectMask t) := by
  have hall : ∀ k : Fin 8, k ∈ ([0, 1, 2, 3, 4, 5, 6, 7] : List (Fin 8)) := by decide
  have hmin := foldl_least (fun k => t[k]) [1, 2, 3, 4, 5, 6, 7] 0 (selectMask t) (by decide) rfl
  exact ⟨fun k => (hmin k (hall k)).1, fun k hk => (hmin k (hall k)).2 hk⟩

/-! ### From BUILD_FUNC to FINALIZE -/

/-- The state with other outputs of the matrix commands. -/
def State.withOutputs (s : State) (k : BitVec 3) (p : Vector Penalties 8) (q : Vector Word 8) (m : Memory) : State :=
  { s with status := { s.status with mask := k }, pen := p, pentot := q, mem := m }

/-- From `s` to `t` only MASK, the scores and symbol cells changed. -/
def SymbolOnly (s t : State) : Prop :=
  (∃ k p q m, t = s.withOutputs k p q m) ∧ ∀ a, ¬ InSymbol s a → t.readRam a = s.readRam a

theorem SymbolOnly.trans {s t u : State} (h : SymbolOnly s t) (h' : SymbolOnly t u) : SymbolOnly s u := by
  obtain ⟨⟨k, p, q, m, rfl⟩, hframe⟩ := h
  obtain ⟨⟨k', p', q', m', rfl⟩, hframe'⟩ := h'
  exact ⟨⟨k', p', q', m', rfl⟩, fun a ha => (hframe' a ha).trans (hframe a ha)⟩

theorem SymbolOnly.storeGrid {s : State} (hv : Valid s) {g : Grid} (hg : g.Square s.side) :
    SymbolOnly s (s.storeGrid g) :=
  ⟨⟨_, _, _, _, rfl⟩, fun a ha =>
    (State.readRam_storeGrid s hg ((State.side_le ((valid_iff s).mpr hv)).trans (by decide)) a).2 ha⟩

theorem SymbolOnly.setScores (s : State) (p : Vector Penalties 8) (q : Vector Word 8) :
    SymbolOnly s (s.setScores p q) := ⟨⟨_, _, _, _, rfl⟩, fun _ _ => rfl⟩

theorem SymbolOnly.setMask (s : State) (k : BitVec 3) : SymbolOnly s (s.setStatus { s.status with mask := k }) :=
  ⟨⟨_, _, _, _, rfl⟩, fun _ _ => rfl⟩

/-- The buffers hold no symbol cell, so they stay (R46). -/
theorem SymbolOnly.readRam_buffer {s t : State} (h : SymbolOnly s t) {a : Nat} (ha : a < 0x10000) :
    t.readRam a = s.readRam a :=
  h.2 a fun hin => absurd hin.1 (by simp only [Config.matrixBase]; omega)

theorem SymbolOnly.valid {s t : State} (h : SymbolOnly s t) (hv : Valid s) : Valid t := by
  obtain ⟨⟨k, p, q, m, rfl⟩, -⟩ := h
  exact hv

/-- The last four bodies of a RUN are done: they change only MASK, the scores and symbol cells, and MASK is the selected
mask (R99, R104, R119, R120). -/
theorem buildBodies_done {s : State} (hv : Valid s) : ∃ t,
    (((bodyBuildFunc s).andThen bodyPlace).andThen bodyScore).andThen bodyFinalize = .done t ∧ SymbolOnly s t ∧
      t.status.mask = BitVec.ofNat 3 (selectMask t.pentot).val := by
  obtain ⟨s3, h3, hsym3⟩ : ∃ u, bodyBuildFunc s = .done u ∧ SymbolOnly s u :=
    ⟨_, rfl, .storeGrid hv (square_funcGrid _)⟩
  have hv3 := hsym3.valid hv
  have hdrawn := drawn_of_bodyBuildFunc ((valid_iff s).mpr hv) h3
  obtain ⟨s4, h4, hsym4⟩ : ∃ u, bodyPlace s3 = .done u ∧ SymbolOnly s3 u :=
    ⟨_, bodyPlace_done hv3 hdrawn, .storeGrid hv3 (square_placedGrid _)⟩
  obtain ⟨s5, h5, hsym5⟩ : ∃ u, bodyScore s4 = .done u ∧ SymbolOnly s4 u := ⟨_, rfl, .setScores _ _ _⟩
  have hv5 := hsym5.valid (hsym4.valid hv3)
  obtain ⟨t, h6, hsym6, hmask⟩ : ∃ u, bodyFinalize s5 = .done u ∧ SymbolOnly s5 u ∧
      u.status.mask = BitVec.ofNat 3 (selectMask u.pentot).val :=
    ⟨_, rfl, (SymbolOnly.storeGrid hv5 (square_finishedGrid s5)).trans (.setMask _ _), rfl⟩
  refine ⟨t, ?_, hsym3.trans (hsym4.trans (hsym5.trans hsym6)), hmask⟩
  simp only [BodyResult.andThen_eq_done]
  exact ⟨s5, ⟨s4, ⟨s3, h3, h4⟩, h5⟩, h6⟩

/-! ### RUN -/

/-- The state after RS_ENCODE's body. -/
def encoded (s : State) : State := s.storeBlock Config.ecbufBase (ecOfBlocks s.row s.dataCodewords)

/-- The state after INTERLEAVE's body, run on the state after RS_ENCODE's. -/
def interleaved (s : State) : State :=
  (encoded s).storeBlock Config.cwbufBase (streamOf (encoded s) fun k => (encoded s).readRam (0x02000 + k))

theorem interleaved_eq_setMem (s : State) : ∃ m, interleaved s = s.setMem m := ⟨_, rfl⟩

/-- RUN's body is done under a valid CFG: on the state INTERLEAVE leaves, only MASK, the scores and symbol cells change
(R75). -/
theorem bodyRun_done {s : State} (hv : Valid s) : ∃ t, bodyRun s = .done t ∧ SymbolOnly (interleaved s) t ∧
    t.status.mask = BitVec.ofNat 3 (selectMask t.pentot).val := by
  have hcfg : (interleaved s).cfg = s.cfg := rfl
  obtain ⟨t, ht, hsym, hmask⟩ := buildBodies_done (s := interleaved s) (by rwa [Valid, hcfg])
  refine ⟨t, ?_, hsym, hmask⟩
  have h1 : bodyRsEncode s = .done (encoded s) := bodyRsEncode_done hv
  have h2 : bodyInterleave (encoded s) = .done (interleaved s) := bodyInterleave_done (s := encoded s) hv
  rw [bodyRun, h1, show (BodyResult.done (encoded s)).andThen bodyInterleave = _ from h2]
  exact ht

/-! ### The buffers after a RUN -/

section
variable {s t : State} (hv : Valid s) (ht : SymbolOnly (interleaved s) t)
include hv

theorem ecLength_le : s.row.n * s.row.e ≤ 0x1000 := (State.row_bounded ((valid_iff s).mpr hv)).ec

theorem readRam_interleaved_of_not_inCw {a : Nat} (ha : ¬ InCw s a) :
    (interleaved s).readRam a = (encoded s).readRam a := by
  rw [interleaved, State.readRam_storeBlock, streamOf_length (s := encoded s) hv]
  exact if_neg ha

include ht

/-- The bytes below CWBUF after a RUN are those RS_ENCODE left. -/
theorem readRam_of_lt_cw {a : Nat} (ha : a < 0x03000) : t.readRam a = (encoded s).readRam a := by
  have hcw : ¬ InCw s a := fun h => absurd h.1 (by omega)
  rw [ht.readRam_buffer (by omega), readRam_interleaved_of_not_inCw hv hcw]

/-- ECBUF holds the EC codewords of DBUF after a RUN (R89). -/
theorem run_ec {b j : Nat} (hb : b < s.row.n) (hj : j < s.row.e) :
    (rsRemainder (blockData s b) s.row.e)[j]? = some (t.readRam (0x02000 + (b * s.row.e + j))) := by
  have hlt : b * s.row.e + j < s.row.n * s.row.e := by nlinarith
  have hec := ecLength_le hv
  rw [readRam_of_lt_cw hv ht (by omega), ← ecOfBlocks_getElem? s hb hj]
  exact getElem?_readRam_storeBlock s _ (by rw [ecOfBlocks_length]; exact hlt)

/-- CWBUF holds the stream of DBUF and ECBUF after a RUN (R90). -/
theorem run_cw {j : Nat} (hj : j < s.total) :
    (streamOf s fun k => t.readRam (0x02000 + k))[j]? = some (t.readRam (0x03000 + j)) := by
  have htotal := State.total_lt ((valid_iff s).mpr hv)
  have hec := ecLength_le hv
  have hk := (State.row_bounded ((valid_iff s).mpr hv)).k
  have hstream : streamOf (encoded s) (fun k => (encoded s).readRam (0x02000 + k)) =
      streamOf s fun k => t.readRam (0x02000 + k) := by
    refine streamOf_congr rfl (fun i hi => ?_) fun k hk => ?_
    · rw [encoded, State.readRam_storeBlock]
      exact if_neg (by simp only [Config.ecbufBase]; omega)
    · rw [readRam_of_lt_cw hv ht (by omega)]
  rw [ht.readRam_buffer (by omega), ← hstream]
  exact getElem?_readRam_storeBlock (encoded s) _ (by rw [streamOf_length (s := encoded s) hv]; exact hj)

end

end Sys2Proof.Machine
end

section
/-! PROOFS. RUN completes (40_control.md R75). -/

namespace Sys2Proof.Proofs

open Sys2Proof.Machine Sys2Proof.Claims

/-- Settles O17: `bodyRun_done` gives the state RUN's body ends in, the outputs are those of its bodies. -/
theorem runCompletes : Obligations.RunCompletes := by
  intro s hb hop hv
  have hvalid := (valid_iff s).mpr hv
  obtain ⟨t, ht, hsym, hmask⟩ := bodyRun_done hv
  have hrun : exec .run s = .next (finish .run t) := by
    rw [exec_running hb (running_eq_some (i := .run).mpr ⟨by decide, hop⟩), complete, bodyOf, ht]
  have hout : OutputsOnly s t := by
    have := bodyRun_outputs hvalid
    rwa [ht] at this
  obtain ⟨-, hfilled⟩ := filled_of_bodyRun hvalid ht
  refine ⟨_, selectMask t.pentot, hrun, selectMask_isBest _, ?_, fun b j hbn hj => run_ec hv hsym hbn hj,
    fun j hj => run_cw hv hsym hj, ?_, hout.frame⟩
  · obtain ⟨m, hm⟩ := interleaved_eq_setMem s
    obtain ⟨⟨k, p, q, m', rfl⟩, -⟩ := hsym
    rw [← hmask, hm]
    rfl
  · have hside : s.side = t.side := by rw [State.side, State.version, ← hout.cfg]; rfl
    rw [hside]
    exact hfilled

end Sys2Proof.Proofs
end

section
/-! PROOFS. GF(256) (41_ec_encoder.md R78 to R80): the product is additive in each factor, so its laws follow from those of
the eight powers of x; the powers of α and the tables. -/

namespace Sys2Proof.Machine

/-! ### The product is additive in each factor -/

/-- The shift and the reduction of one round of R79. -/
def reduceShift (r : BitVec 9) : BitVec 9 := r <<< 1 ^^^ if (r <<< 1).getLsbD 8 then 0x11D else 0

theorem gfmulRound_eq (a b : Byte) (r : BitVec 9) (i : Nat) :
    gfmulRound a b r i = reduceShift r ^^^ if b.getLsbD i then a.setWidth 9 else 0 := by
  simp only [gfmulRound, reduceShift]
  cases (r <<< 1).getLsbD 8 <;> cases b.getLsbD i <;> simp

theorem ite_xor {w : Nat} (p q : Bool) (x : BitVec w) :
    (if p ^^ q then x else 0) = (if p then x else 0) ^^^ if q then x else 0 := by
  cases p <;> cases q <;> simp

theorem reduceShift_xor (r r' : BitVec 9) : reduceShift (r ^^^ r') = reduceShift r ^^^ reduceShift r' := by
  rw [reduceShift, BitVec.shiftLeft_xor_distrib, BitVec.getLsbD_xor, ite_xor, reduceShift, reduceShift]
  ac_rfl

/-- Rounds that are additive together fold to results that are. -/
theorem foldl_xor {w : Nat} {f g h : BitVec w → Nat → BitVec w} (hround : ∀ r r' i, h (r ^^^ r') i = f r i ^^^ g r' i)
    (is : List Nat) (r r' : BitVec w) : is.foldl h (r ^^^ r') = is.foldl f r ^^^ is.foldl g r' := by
  induction is generalizing r r' with
  | nil => rfl
  | cons i is ih => rw [List.foldl_cons, hround, ih, List.foldl_cons, List.foldl_cons]

theorem gfmul_xor_left (a a' b : Byte) : gfmul (a ^^^ a') b = gfmul a b ^^^ gfmul a' b := by
  have hround (r r' : BitVec 9) (i : Nat) :
      gfmulRound (a ^^^ a') b (r ^^^ r') i = gfmulRound a b r i ^^^ gfmulRound a' b r' i := by
    simp only [gfmulRound_eq, reduceShift_xor, BitVec.setWidth_xor]
    split_ifs
    · ac_rfl
    · simp
  rw [gfmul, ← BitVec.xor_zero (x := (0 : BitVec 9)), foldl_xor hround, BitVec.setWidth_xor]
  rfl

theorem gfmul_xor_right (a b b' : Byte) : gfmul a (b ^^^ b') = gfmul a b ^^^ gfmul a b' := by
  have hround (r r' : BitVec 9) (i : Nat) :
      gfmulRound a (b ^^^ b') (r ^^^ r') i = gfmulRound a b r i ^^^ gfmulRound a b' r' i := by
    simp only [gfmulRound_eq, reduceShift_xor, BitVec.getLsbD_xor, ite_xor]
    ac_rfl
  rw [gfmul, ← BitVec.xor_zero (x := (0 : BitVec 9)), foldl_xor hround, BitVec.setWidth_xor]
  rfl

@[simp] theorem gfmul_zero (a : Byte) : gfmul a 0#8 = 0#8 := by
  have h := gfmul_xor_right a 0#8 0#8
  rwa [BitVec.xor_self, BitVec.xor_self] at h

@[simp] theorem zero_gfmul (b : Byte) : gfmul 0#8 b = 0#8 := by
  have h := gfmul_xor_left 0#8 0#8 b
  rwa [BitVec.xor_self, BitVec.xor_self] at h

/-! ### The laws of the field -/

/-- The low k + 1 bits are the low k bits and bit k. -/
theorem setWidth_succ_eq_xor (a : Byte) (k : Nat) : (a.setWidth (k + 1)).setWidth 8 =
    (a.setWidth k).setWidth 8 ^^^ if a.getLsbD k then BitVec.twoPow 8 k else 0 := by
  refine BitVec.eq_of_getLsbD_eq fun j hj => ?_
  rcases lt_trichotomy j k with hlt | rfl | hgt
  · cases a.getLsbD k <;> simp [hj, hlt, hlt.ne, Nat.lt_succ_of_lt hlt]
  · cases h : a.getLsbD j <;> simp_all
  · cases a.getLsbD k <;> simp [hj, hgt.ne', Nat.not_lt.mpr hgt.le, Nat.not_lt.mpr (Nat.succ_le_of_lt hgt)]

/-- Every byte is a sum of the bytes 1, x, …, x^7. -/
theorem byte_induction {P : Byte → Prop} (zero : P 0) (bit : ∀ i < 8, P (BitVec.twoPow 8 i))
    (add : ∀ a b, P a → P b → P (a ^^^ b)) (a : Byte) : P a := by
  suffices h : ∀ k ≤ 8, P ((a.setWidth k).setWidth 8) by simpa using h 8 le_rfl
  intro k
  induction k with
  | zero => exact fun _ => BitVec.of_length_zero (x := a.setWidth 0) ▸ zero
  | succ k ih =>
    intro hk
    rw [setWidth_succ_eq_xor]
    refine add _ _ (ih (by omega)) ?_
    split
    · exact bit k hk
    · exact zero

/-- Additive functions that agree at 1, x, …, x^7 agree everywhere. -/
theorem additive_ext {f g : Byte → Byte} (hf : ∀ a b, f (a ^^^ b) = f a ^^^ f b) (hg : ∀ a b, g (a ^^^ b) = g a ^^^ g b)
    (h : ∀ i < 8, f (BitVec.twoPow 8 i) = g (BitVec.twoPow 8 i)) (a : Byte) : f a = g a := by
  have hzero {k : Byte → Byte} (hk : ∀ a b, k (a ^^^ b) = k a ^^^ k b) : k 0 = 0 := by
    have h0 := hk 0 0
    rwa [BitVec.xor_self, BitVec.xor_self] at h0
  refine byte_induction (P := fun a => f a = g a) ((hzero hf).trans (hzero hg).symm) h (fun a b ha hb => ?_) a
  rw [hf, hg, ha, hb]

theorem gfmul_comm_bits : ∀ i < 8, ∀ j < 8, gfmul (BitVec.twoPow 8 i) (BitVec.twoPow 8 j) =
    gfmul (BitVec.twoPow 8 j) (BitVec.twoPow 8 i) := by decide +kernel

theorem gfmul_assoc_bits : ∀ i < 8, ∀ j < 8, ∀ k < 8,
    gfmul (gfmul (BitVec.twoPow 8 i) (BitVec.twoPow 8 j)) (BitVec.twoPow 8 k) =
      gfmul (BitVec.twoPow 8 i) (gfmul (BitVec.twoPow 8 j) (BitVec.twoPow 8 k)) := by decide +kernel

theorem gfmul_comm (a b : Byte) : gfmul a b = gfmul b a := by
  refine additive_ext (f := (gfmul · b)) (g := gfmul b) (gfmul_xor_left · · b) (gfmul_xor_right b) (fun i hi => ?_) a
  exact additive_ext (f := gfmul _) (g := (gfmul · _)) (gfmul_xor_right _) (gfmul_xor_left · · _)
    (fun j hj => gfmul_comm_bits i hi j hj) b

theorem gfmul_assoc (a b c : Byte) : gfmul (gfmul a b) c = gfmul a (gfmul b c) := by
  refine additive_ext (f := fun a => gfmul (gfmul a b) c) (g := (gfmul · _)) (by simp [gfmul_xor_left])
    (gfmul_xor_left · · _) (fun i hi => ?_) a
  refine additive_ext (f := fun b => gfmul (gfmul _ b) c) (g := fun b => gfmul _ (gfmul b c))
    (by simp [gfmul_xor_left, gfmul_xor_right]) (by simp [gfmul_xor_left, gfmul_xor_right]) (fun j hj => ?_) b
  exact additive_ext (f := gfmul _) (g := fun c => gfmul _ (gfmul _ c)) (gfmul_xor_right _)
    (by simp [gfmul_xor_right]) (fun k hk => gfmul_assoc_bits i hi j hj k hk) c

@[simp] theorem gfmul_one (a : Byte) : gfmul a 1#8 = a :=
  additive_ext (f := (gfmul · 1#8)) (g := id) (gfmul_xor_left · · _) (fun _ _ => rfl) (by decide) a

@[simp] theorem one_gfmul (a : Byte) : gfmul 1#8 a = a := by rw [gfmul_comm, gfmul_one]

/-! ### The powers of α and the tables -/

theorem alphaPow_add (i j : Nat) : alphaPow (i + j) = gfmul (alphaPow i) (alphaPow j) := by
  induction j with
  | zero => exact (gfmul_one _).symm
  | succ j ih => rw [← Nat.add_assoc, alphaPow, alphaPow, ih, gfmul_assoc]

theorem expTable_succ : ∀ i < 255, gfExp (i + 1) = gfmul (gfExp i) 0x02 := by decide +kernel

theorem logTable_exp : ∀ i < 255, gfLog (gfExp i) = some i := by decide +kernel

theorem expTable_log : ∀ a : Byte, a ≠ 0 → ∃ i ∈ gfLog a, i < 255 ∧ gfExp i = a := by decide +kernel

/-- EXP[i] = α^i (R80). -/
theorem gfExp_eq_alphaPow {i : Nat} (hi : i < 256) : gfExp i = alphaPow i := by
  induction i with
  | zero => rfl
  | succ i ih => rw [expTable_succ i (by omega), ih (by omega), alphaPow]

theorem alphaPow_255 : alphaPow 255 = 1#8 := (gfExp_eq_alphaPow (by decide)).symm.trans rfl

theorem alphaPow_mod (i : Nat) : alphaPow (i % 255) = alphaPow i := by
  have hperiod (q : Nat) : alphaPow (255 * q) = 1#8 := by
    induction q with
    | zero => rfl
    | succ q ih => rw [Nat.mul_succ, alphaPow_add, ih, alphaPow_255, gfmul_one]
  conv_rhs => rw [← Nat.div_add_mod i 255, alphaPow_add, hperiod, one_gfmul]

/-- LOG[α^i] = i (R80). -/
theorem gfLog_alphaPow {i : Nat} (hi : i < 255) : gfLog (alphaPow i) = some i := by
  rw [← gfExp_eq_alphaPow (by omega), logTable_exp i hi]

/-- Every non-zero element is a power of α (R80). -/
theorem exists_alphaPow_eq {a : Byte} (ha : a ≠ 0) : ∃ i < 255, alphaPow i = a := by
  obtain ⟨i, -, hi, rfl⟩ := expTable_log a ha
  exact ⟨i, hi, (gfExp_eq_alphaPow (by omega)).symm⟩

/-- The inverse of α^i is α^(255 − i) (R79). -/
theorem exists_gfmul_eq_one {a : Byte} (ha : a ≠ 0) : ∃ d, gfmul a d = 1#8 := by
  obtain ⟨i, hi, rfl⟩ := exists_alphaPow_eq ha
  exact ⟨alphaPow (255 - i), by rw [← alphaPow_add, Nat.add_sub_cancel' hi.le, alphaPow_255]⟩

/-- Multiplication by the tables is `gfmul` (R80): logarithms add. -/
theorem gfmulByTables_eq (a b : Byte) : gfmulByTables a b = gfmul a b := by
  have hzero : gfLog 0#8 = none := rfl
  by_cases ha : a = 0
  · subst ha
    simp [gfmulByTables, hzero]
  by_cases hb : b = 0
  · subst hb
    simp [gfmulByTables, hzero]
  obtain ⟨i, hi, rfl⟩ := exists_alphaPow_eq ha
  obtain ⟨j, hj, rfl⟩ := exists_alphaPow_eq hb
  have hlt : (i + j) % 255 < 255 := Nat.mod_lt _ (by decide)
  rw [gfmulByTables, gfLog_alphaPow hi, gfLog_alphaPow hj, ← alphaPow_add, ← alphaPow_mod (i + j)]
  exact gfExp_eq_alphaPow (by omega)

end Sys2Proof.Machine
end

section
/-! PROOFS. Polynomials over GF(256) (41_ec_encoder.md R81, R87, R88): the remainder is additive in the data, and the
codeword is zero at the roots of the generator. -/

namespace Sys2Proof.Machine

/-! ### Sums and multiples of lists of codewords -/

/-- The sum of two lists of codewords of the same length. -/
def addLists (p q : List Byte) : List Byte := List.zipWith (· ^^^ ·) p q

@[simp] theorem addLists_cons (a b : Byte) (p q : List Byte) : addLists (a :: p) (b :: q) = (a ^^^ b) :: addLists p q := rfl

theorem addLists_length {p q : List Byte} (h : p.length = q.length) : (addLists p q).length = p.length := by
  simp [addLists, h]

theorem addLists_zeros (p : List Byte) : addLists (List.replicate p.length 0#8) p = p := by
  induction p with
  | nil => rfl
  | cons a p ih => rw [List.length_cons, List.replicate_succ, addLists_cons, ih, BitVec.zero_xor]

theorem addLists_addLists (p p' q q' : List Byte) :
    addLists (addLists p p') (addLists q q') = addLists (addLists p q) (addLists p' q') := by
  refine List.ext_getElem ?_ fun i hi hi' => ?_
  · simp only [addLists, List.length_zipWith]
    ac_rfl
  · simp only [addLists, List.getElem_zipWith]
    ac_rfl

/-- The product of a list of codewords by one element. -/
def scale (p : List Byte) (c : Byte) : List Byte := p.map (gfmul · c)

@[simp] theorem scale_cons (a : Byte) (p : List Byte) (c : Byte) : scale (a :: p) c = gfmul a c :: scale p c := rfl

@[simp] theorem scale_length (p : List Byte) (c : Byte) : (scale p c).length = p.length := List.length_map _

theorem scale_xor (p : List Byte) (c c' : Byte) : scale p (c ^^^ c') = addLists (scale p c) (scale p c') := by
  simp [scale, addLists, gfmul_xor_right]

theorem scale_zero (p : List Byte) : scale p 0#8 = List.replicate p.length 0#8 := by simp [scale]

theorem scale_one (p : List Byte) : scale p 1#8 = p := by simp [scale]

/-! ### One round of the shift register -/

/-- The remainder register shifted by one codeword, its first codeword dropped (R87). -/
def shiftOut (rem : List Byte) : List Byte := (rem ++ [0#8]).tail

@[simp] theorem shiftOut_length (rem : List Byte) : (shiftOut rem).length = rem.length := by simp [shiftOut]

theorem shiftOut_add {p q : List Byte} (h : p.length = q.length) :
    shiftOut (addLists p q) = addLists (shiftOut p) (shiftOut q) := by
  have happend : addLists (p ++ [0#8]) (q ++ [0#8]) = addLists p q ++ [0#8] := List.zipWith_append h
  rw [shiftOut, ← happend]
  exact List.tail_zipWith

theorem headD_add {p q : List Byte} (h : p.length = q.length) :
    (addLists p q).headD 0 = p.headD 0 ^^^ q.headD 0 := by
  cases p with
  | nil =>
    obtain rfl := List.length_eq_zero_iff.mp h.symm
    rfl
  | cons a p =>
    obtain ⟨b, q, rfl⟩ := List.exists_cons_of_length_eq_add_one h.symm
    rfl

/-- The round of R87: the feedback times the taps is added to the shifted register. -/
theorem remRound_eq {taps rem : List Byte} (h : rem.length = taps.length) (d : Byte) :
    remRound taps rem d = addLists (shiftOut rem) (scale taps (d ^^^ rem.headD 0)) := by
  cases rem with
  | nil =>
    obtain rfl := List.length_eq_zero_iff.mp h.symm
    rfl
  | cons r rem => exact List.zipWith_map_right.symm

/-! ### The remainder -/

section
variable {taps : List Byte}

theorem remRound_add {rem rem' : List Byte} (h : rem.length = taps.length) (h' : rem'.length = taps.length)
    (d d' : Byte) : remRound taps (addLists rem rem') (d ^^^ d') = addLists (remRound taps rem d) (remRound taps rem' d') := by
  have hlen : rem.length = rem'.length := h.trans h'.symm
  have hfeedback : d ^^^ d' ^^^ (rem.headD 0 ^^^ rem'.headD 0) = (d ^^^ rem.headD 0) ^^^ (d' ^^^ rem'.headD 0) := by
    ac_rfl
  rw [remRound_eq ((addLists_length hlen).trans h), remRound_eq h, remRound_eq h', shiftOut_add hlen, headD_add hlen,
    hfeedback, scale_xor, addLists_addLists]

/-- The shift register is additive in its contents and the data together (R88). -/
theorem foldl_remRound_add {d d' rem rem' : List Byte} (hd : d.length = d'.length) (h : rem.length = taps.length)
    (h' : rem'.length = taps.length) : (addLists d d').foldl (remRound taps) (addLists rem rem') =
      addLists (d.foldl (remRound taps) rem) (d'.foldl (remRound taps) rem') := by
  induction d generalizing d' rem rem' with
  | nil =>
    obtain rfl := List.length_eq_zero_iff.mp hd.symm
    rfl
  | cons a d ih =>
    obtain ⟨b, d', rfl⟩ := List.exists_cons_of_length_eq_add_one hd.symm
    rw [addLists_cons, List.foldl_cons, remRound_add h h']
    exact ih (Nat.succ_inj.mp hd) (remRound_length h a) (remRound_length h' b)

/-- A register of zeros takes on the codeword's multiple of the taps. -/
theorem remRound_zeros (d : Byte) : remRound taps (List.replicate taps.length 0#8) d = scale taps d := by
  have hhead : (List.replicate taps.length 0#8).headD 0 = 0#8 := by cases taps <;> rfl
  have hshift : shiftOut (List.replicate taps.length 0#8) = List.replicate taps.length 0#8 := by
    rw [shiftOut, ← List.replicate_succ', List.replicate_succ, List.tail_cons]
  have h := addLists_zeros (scale taps d)
  rw [scale_length] at h
  rw [remRound_eq List.length_replicate, hhead, hshift, BitVec.xor_zero, h]

theorem remRound_zeros_zero :
    remRound taps (List.replicate taps.length 0#8) 0#8 = List.replicate taps.length 0#8 := by
  rw [remRound_zeros, scale_zero]

end

theorem genpoly_tail_length (e : Nat) : (genpoly e).tail.length = e := by simp [genpoly_length]

/-- The remainder as a run of the shift register on as many zeros as there are taps (R87). -/
theorem rsRemainder_eq (d : List Byte) (e : Nat) : rsRemainder d e =
    d.foldl (remRound (genpoly e).tail) (List.replicate (genpoly e).tail.length 0#8) := by
  rw [genpoly_tail_length]
  rfl

/-- The remainder is additive in the data (R88). -/
theorem rsRemainder_add {d d' : List Byte} (h : d.length = d'.length) (e : Nat) :
    rsRemainder (addLists d d') e = addLists (rsRemainder d e) (rsRemainder d' e) := by
  have hzeros := addLists_zeros (List.replicate (genpoly e).tail.length 0#8)
  rw [List.length_replicate] at hzeros
  rw [rsRemainder_eq, rsRemainder_eq, rsRemainder_eq, ← foldl_remRound_add h List.length_replicate List.length_replicate,
    hzeros]

/-- A leading zero does not change the remainder (R88). -/
theorem rsRemainder_zero_cons (d : List Byte) (e : Nat) : rsRemainder (0#8 :: d) e = rsRemainder d e := by
  rw [rsRemainder_eq, rsRemainder_eq, List.foldl_cons, remRound_zeros_zero]

theorem rsRemainder_zeros (k e : Nat) : rsRemainder (List.replicate k 0#8) e = List.replicate e 0#8 := by
  induction k with
  | zero => rfl
  | succ k ih => rw [List.replicate_succ, rsRemainder_zero_cons, ih]

theorem rsRemainder_one (e : Nat) : rsRemainder [1#8] e = (genpoly e).tail := by
  rw [rsRemainder_eq, List.foldl_cons, List.foldl_nil, remRound_zeros, scale_one]

/-! ### Values of polynomials -/

/-- Horner's rule from a value `acc` on: acc · x^n + p(x) for a list of n coefficients, highest degree first. -/
def hornerFrom (acc : Byte) (p : List Byte) (x : Byte) : Byte := p.foldl (fun acc c => gfadd (gfmul acc x) c) acc

theorem polyEval_eq_hornerFrom (p : List Byte) (x : Byte) : polyEval p x = hornerFrom 0#8 p x := rfl

@[simp] theorem hornerFrom_nil (acc x : Byte) : hornerFrom acc [] x = acc := rfl

@[simp] theorem hornerFrom_cons (acc c : Byte) (p : List Byte) (x : Byte) :
    hornerFrom acc (c :: p) x = hornerFrom (gfmul acc x ^^^ c) p x := rfl

theorem hornerFrom_append (acc : Byte) (p q : List Byte) (x : Byte) :
    hornerFrom acc (p ++ q) x = hornerFrom (hornerFrom acc p x) q x := List.foldl_append

theorem hornerFrom_add {p q : List Byte} (h : p.length = q.length) (a b x : Byte) :
    hornerFrom (a ^^^ b) (addLists p q) x = hornerFrom a p x ^^^ hornerFrom b q x := by
  induction p generalizing q a b with
  | nil =>
    obtain rfl := List.length_eq_zero_iff.mp h.symm
    rfl
  | cons c p ih =>
    obtain ⟨c', q, rfl⟩ := List.exists_cons_of_length_eq_add_one h.symm
    have hhead : gfmul (a ^^^ b) x ^^^ (c ^^^ c') = (gfmul a x ^^^ c) ^^^ (gfmul b x ^^^ c') := by
      rw [gfmul_xor_left]
      ac_rfl
    rw [addLists_cons, hornerFrom_cons, hhead, ih (Nat.succ_inj.mp h), hornerFrom_cons, hornerFrom_cons]

theorem hornerFrom_scale (a c : Byte) (p : List Byte) (x : Byte) :
    hornerFrom (gfmul a c) (scale p c) x = gfmul (hornerFrom a p x) c := by
  induction p generalizing a with
  | nil => rfl
  | cons b p ih =>
    have hhead : gfmul (gfmul a c) x ^^^ gfmul b c = gfmul (gfmul a x ^^^ b) c := by
      rw [gfmul_xor_left, gfmul_assoc, gfmul_comm c x, gfmul_assoc]
    rw [scale_cons, hornerFrom_cons, hhead, ih, hornerFrom_cons]

/-! ### The roots of the generator -/

/-- Multiplying by x + root multiplies the value by it (R81). -/
theorem polyEval_mulLinear (g : List Byte) (root x : Byte) :
    polyEval (mulLinear g root) x = gfmul (polyEval g x) (x ^^^ root) := by
  have hsum : mulLinear g root = addLists (g ++ [0#8]) (0#8 :: scale g root) := rfl
  have hshift : hornerFrom 0#8 (g ++ [0#8]) x = gfmul (polyEval g x) x := by
    rw [hornerFrom_append, hornerFrom_cons, hornerFrom_nil, BitVec.xor_zero, polyEval_eq_hornerFrom]
  have hscale : hornerFrom 0#8 (0#8 :: scale g root) x = gfmul (polyEval g x) root := by
    rw [polyEval_eq_hornerFrom, ← hornerFrom_scale, zero_gfmul, hornerFrom_cons, zero_gfmul, BitVec.xor_zero]
  have hadd := hornerFrom_add (p := g ++ [0#8]) (q := 0#8 :: scale g root) (by simp) 0#8 0#8 x
  rw [BitVec.xor_self] at hadd
  rw [polyEval_eq_hornerFrom, hsum, hadd, hshift, hscale, gfmul_xor_right]

theorem genpoly_succ (e : Nat) : genpoly (e + 1) = mulLinear (genpoly e) (alphaPow e) := by
  rw [genpoly, List.range_succ, List.foldl_concat]
  rfl

/-- g_E is zero at α^0 … α^(E−1) (R81). -/
theorem polyEval_genpoly {e i : Nat} (h : i < e) : polyEval (genpoly e) (alphaPow i) = 0#8 := by
  induction e with
  | zero => omega
  | succ e ih =>
    rw [genpoly_succ, polyEval_mulLinear]
    by_cases hi : i = e
    · rw [hi, BitVec.xor_self, gfmul_zero]
    · rw [ih (by omega), zero_gfmul]

/-- g_E is monic (R81). -/
theorem genpoly_eq_cons (e : Nat) : genpoly e = 1#8 :: (genpoly e).tail := by
  induction e with
  | zero => rfl
  | succ e ih =>
    rw [genpoly_succ, ih]
    rfl

/-! ### The codeword polynomial -/

/-- One round of the shift register keeps the codeword polynomial a multiple of the generator: with P the data so far, R the
register and G the taps, P'·x^E + R' = (P·x^E + R)·x + (x^E + G)·f (R87). -/
theorem hornerFrom_remRound {taps rem : List Byte} (h : rem.length = taps.length) (acc d x : Byte) :
    hornerFrom (gfmul acc x ^^^ d) (remRound taps rem d) x =
      gfmul (hornerFrom acc rem x) x ^^^ gfmul (hornerFrom 1#8 taps x) (d ^^^ rem.headD 0) := by
  have hshift : hornerFrom (gfmul acc x ^^^ rem.headD 0) (shiftOut rem) x = gfmul (hornerFrom acc rem x) x := by
    cases rem with
    | nil => exact BitVec.xor_zero
    | cons r rem => exact (hornerFrom_append _ rem [0#8] x).trans BitVec.xor_zero
  have hacc : gfmul acc x ^^^ d = (gfmul acc x ^^^ rem.headD 0) ^^^ (d ^^^ rem.headD 0) := by
    rw [BitVec.xor_comm d, BitVec.xor_assoc, ← BitVec.xor_assoc (rem.headD 0), BitVec.xor_self, BitVec.zero_xor]
  have htaps := hornerFrom_scale 1#8 (d ^^^ rem.headD 0) taps x
  rw [one_gfmul] at htaps
  rw [remRound_eq h, hacc, hornerFrom_add (by simpa using h), hshift, htaps]

/-- At a root of the generator the codeword polynomial stays zero through the rounds. -/
theorem hornerFrom_foldl_remRound {taps rem : List Byte} (h : rem.length = taps.length) {x : Byte}
    (hroot : hornerFrom 1#8 taps x = 0#8) (d : List Byte) {acc : Byte} (hacc : hornerFrom acc rem x = 0#8) :
    hornerFrom (hornerFrom acc d x) (d.foldl (remRound taps) rem) x = 0#8 := by
  induction d generalizing rem acc with
  | nil => exact hacc
  | cons a d ih =>
    refine ih (remRound_length h a) ((hornerFrom_remRound h acc a x).trans ?_)
    rw [hacc, hroot, zero_gfmul, zero_gfmul, BitVec.xor_self]

/-- The codeword polynomial is zero at the roots of the generator (R88). -/
theorem polyEval_codeword (d : List Byte) {e i : Nat} (h : i < e) :
    polyEval (d ++ rsRemainder d e) (alphaPow i) = 0#8 := by
  have hroot : hornerFrom 1#8 (genpoly e).tail (alphaPow i) = 0#8 := by
    have hgen := polyEval_genpoly h
    rwa [genpoly_eq_cons, polyEval_eq_hornerFrom, hornerFrom_cons, zero_gfmul, BitVec.zero_xor] at hgen
  have hzeros (n : Nat) : hornerFrom 0#8 (List.replicate n 0#8) (alphaPow i) = 0#8 := by
    induction n with
    | zero => rfl
    | succ n ih => rw [List.replicate_succ, hornerFrom_cons, zero_gfmul, BitVec.xor_self, ih]
  rw [polyEval_eq_hornerFrom, hornerFrom_append, rsRemainder_eq]
  exact hornerFrom_foldl_remRound List.length_replicate hroot d (hzeros _)

end Sys2Proof.Machine
end

section
/-! PROOFS. The tables of 41_ec_encoder.md R82 to R85 against their formulas and bounds, and the completion of a command whose
body is done. -/

namespace Sys2Proof.Machine

open Sys2Proof.Claims

/-! ### The tables -/

/-- The shape of any row of the block table (R85): short blocks always occur, and long blocks are one codeword longer. -/
theorem blockRow_shape : ∀ v ≤ 40, 1 ≤ v → ∀ l < 4, 1 ≤ (blockRow v l).n1 ∧ 1 ≤ (blockRow v l).k1 ∧
    (0 < (blockRow v l).n2 → (blockRow v l).k2 = (blockRow v l).k1 + 1) := by
  decide +kernel

/-- The upper bounds of R85 in any row of the block table. -/
theorem blockRow_upperBounds : ∀ v ≤ 40, ∀ l < 4, (blockRow v l).e ≤ 30 ∧ (blockRow v l).n ≤ 81 ∧
    (blockRow v l).k ≤ 2956 ∧ (blockRow v l).n * (blockRow v l).e ≤ 2430 := by
  decide +kernel

/-- The data codewords decrease from L to M to Q to H (R85). -/
theorem blockRow_k_lt : ∀ v ≤ 40, 1 ≤ v → ∀ l < 3, (blockRow v (l + 1)).k < (blockRow v l).k := by decide +kernel

theorem totalOf_le : ∀ v ≤ 40, totalOf v ≤ 3706 := by decide +kernel

theorem alignOf_eq_alignByStep : ∀ v ≤ 40, 1 ≤ v → alignOf v = alignByStep v := by decide +kernel

theorem alignByStep_length {v : Nat} (h : 2 ≤ v) : (alignByStep v).length = v / 7 + 2 := by
  have hv : v ≠ 1 := by omega
  simp [alignByStep, hv]

/-- The formula of R83. -/
theorem rawOf_eq : ∀ v ≤ 40, 1 ≤ v → (rawOf v : Int) = (16 * v + 128) * v + 64 -
    (if 2 ≤ v then (25 * ((v / 7 + 2 : Nat) : Int) - 10) * ((v / 7 + 2 : Nat) : Int) - 55 else 0) -
    (if 7 ≤ v then 36 else 0) := by
  decide +kernel

/-! ### Completion -/

/-- The completion step of a command whose body is done (R71). -/
theorem exec_finishes {i : Instr} {s t : State} (hi : i ≠ .softReset) (hb : s.status.busy = true)
    (hop : s.curOp = opcode i) (h : bodyOf i s = .done t) : exec i s = .next (finish i t) := by
  rw [exec_running hb (running_eq_some.mpr ⟨hi, hop⟩), complete, h]

/-- What a block of bytes just stored leaves at the addresses outside it. -/
theorem readRam_storeBlock_of_not_in (s : State) {base len : Nat} {bs : List Byte} (hlen : bs.length = len) {a : Nat}
    (ha : ¬ (base ≤ a ∧ a < base + len)) : (s.storeBlock base bs).readRam a = s.readRam a := by
  rw [State.readRam_storeBlock, hlen, if_neg ha]

end Sys2Proof.Machine
end

section
/-! PROOFS. The statements of 41_ec_encoder.md. -/

namespace Sys2Proof.Proofs

open Sys2Proof.Machine Sys2Proof.Claims

/-- Settles O43: the laws hold for the powers of x, and the product is additive in each factor. -/
theorem fieldLawsHold : Obligations.FieldLawsHold :=
  fun a b c => ⟨gfmul_comm a b, gfmul_assoc a b c, gfmul_xor_right a b c, gfmul_one a, gfmul_zero a, exists_gfmul_eq_one⟩

/-- Settles O44: LOG undoes EXP, so the powers differ; they are all non-zero elements, and exponents add. -/
theorem tablesMultiplyAsTheField : Obligations.TablesMultiplyAsTheField := by
  refine ⟨fun i j hi hj hij => ?_, fun a ha => exists_alphaPow_eq ha, alphaPow_255, fun i hi => gfExp_eq_alphaPow hi,
    logTable_exp, gfmulByTables_eq⟩
  have hlog : some i = some j := by rw [← gfLog_alphaPow hi, ← gfLog_alphaPow hj, hij]
  exact Option.some.inj hlog

/-- Settles O46: each round of the shift register is additive, and on a register of zeros it gives a multiple of the taps. -/
theorem remainderIsLinear : Obligations.RemainderIsLinear :=
  fun e d _ => ⟨rsRemainder_length d e, fun h => rsRemainder_add h e, fun k => rsRemainder_zeros k e,
    rsRemainder_zero_cons d e, rsRemainder_one e⟩

/-- Settles O47: the rounds keep the codeword polynomial zero at every root of the generator. -/
theorem codewordHasZeroSyndromes : Obligations.CodewordHasZeroSyndromes :=
  fun _ d _ h => polyEval_codeword d h

/-- Settles O45: the three generators evaluated. -/
theorem generatorPolynomialsMatchTheTable : Obligations.GeneratorPolynomialsMatchTheTable := by
  refine ⟨?_, ?_, ?_⟩ <;> decide +kernel

/-- Settles O10: RS_ENCODE's check holds, and the stored block is the EC codewords block after block. -/
theorem rsEncodeCompletes : Obligations.RsEncodeCompletes := by
  intro s hb hop hv
  have hlen := ecOfBlocks_length s.row s.dataCodewords
  refine ⟨_, exec_finishes (by decide) hb hop (bodyRsEncode_done hv), rfl, fun b j hbn hj => ?_,
    fun a ha => readRam_storeBlock_of_not_in s hlen ha⟩
  have hlt : b * s.row.e + j < s.row.n * s.row.e := by nlinarith
  rw [← ecOfBlocks_getElem? s hbn hj]
  exact getElem?_readRam_storeBlock s _ (hlen ▸ hlt)

/-- Settles O11: the stream has T codewords, so INTERLEAVE's check holds, and the stored block is the stream. -/
theorem interleaveCompletes : Obligations.InterleaveCompletes := by
  intro s hb hop hv
  have hlen := streamOf_length hv fun k => s.readRam (0x02000 + k)
  exact ⟨_, exec_finishes (by decide) hb hop (bodyInterleave_done hv), rfl, hlen,
    fun j hj => getElem?_readRam_storeBlock s _ (hlen ▸ hj), fun a ha => readRam_storeBlock_of_not_in s hlen ha⟩

/-- Settles O48: K + N·E = T(V) by `blockRow_relations`, and N2 < N as N1 ≥ 1; the bounds row by row. -/
theorem blockTableRelations : Obligations.BlockTableRelations := by
  intro v l h1 hv hl
  obtain ⟨htotal, -, -⟩ := blockRow_relations v hv h1 l hl
  obtain ⟨hn1, hk1, hk2⟩ := blockRow_shape v hv h1 l hl
  obtain ⟨he, hn, hk, hec⟩ := blockRow_upperBounds v hv l hl
  have hsum : (blockRow v l).n = (blockRow v l).n1 + (blockRow v l).n2 := rfl
  exact ⟨⟨by omega, hsum⟩, by omega, hk2, htotal, hk1, he, hn, hk, hec, totalOf_le v hv, blockRow_k_lt v hv h1 l⟩

/-- Settles O49: the table of P(V) is that of the step formula, which lists A coordinates, and the table of raw(V) that of
its formula. -/
theorem rawCountFormula : Obligations.RawCountFormula := by
  intro v h1 hv
  have halign := alignOf_eq_alignByStep v hv h1
  exact ⟨fun h2 => halign ▸ alignByStep_length h2, halign, rawOf_eq v hv h1⟩

end Sys2Proof.Proofs
end

section
/-! PROOFS. The cell BUILD_FUNC leaves at a position: the last drawing on it wins (42_matrix_builder.md R91, R100), group of
drawings by group. -/

namespace Sys2Proof.Machine

open Sys2Proof.Claims

/-! ### The last drawing on a cell -/

/-- What the drawings leave in the cell (r, c) that held `x`: the cell of the last one on it (R91). -/
def lastDrawn (r c : Nat) (ds : List Draw) (x : Cell) : Cell :=
  ds.foldl (fun (x : Cell) (d : Draw) => if d.r = r ∧ d.c = c then d.cell else x) x

theorem lastDrawn_cons (r c : Nat) (d : Draw) (ds : List Draw) (x : Cell) :
    lastDrawn r c (d :: ds) x = lastDrawn r c ds (if d.r = r ∧ d.c = c then d.cell else x) := rfl

theorem lastDrawn_append (r c : Nat) (ds es : List Draw) (x : Cell) :
    lastDrawn r c (ds ++ es) x = lastDrawn r c es (lastDrawn r c ds x) := List.foldl_append

theorem lastDrawn_singleton (r c : Nat) (d : Draw) (x : Cell) :
    lastDrawn r c [d] x = if d.r = r ∧ d.c = c then d.cell else x := rfl

/-- One drawing changes the cell at its position alone (R91). -/
theorem get_drawOne {n : Nat} {g : Grid} (hg : g.Square n) (d : Draw) {r c : Nat} (hr : r < n) (hc : c < n) :
    (drawOne n g d).get r c = if d.r = r ∧ d.c = c then d.cell else g.get r c := by
  unfold drawOne
  split
  next hin =>
    rw [Grid.put, Grid.get_update hg (by omega) (by omega)]
    exact if_congr (by omega) rfl rfl
  next hout => rw [if_neg (by omega)]

theorem get_foldl_drawOne {n : Nat} (ds : List Draw) {g : Grid} (hg : g.Square n) {r c : Nat} (hr : r < n) (hc : c < n) :
    (ds.foldl (drawOne n) g).get r c = lastDrawn r c ds (g.get r c) := by
  induction ds generalizing g with
  | nil => rfl
  | cons d ds ih => rw [List.foldl_cons, ih (square_drawOne g d hg), get_drawOne hg d hr hc, lastDrawn_cons]

theorem get_funcGrid (v : Nat) {r c : Nat} (hr : r < sideOf v) (hc : c < sideOf v) :
    (funcGrid v).get r c = lastDrawn r c (funcDraws v) Cell.unset := by
  rw [funcGrid, get_foldl_drawOne _ (Grid.square_tabulate _ _) hr hc, Grid.get_tabulate _ hr hc]

theorem hits_cons {d : Draw} {ds : List Draw} {r c : Nat} :
    Hits (d :: ds) r c ↔ (d.r = r ∧ d.c = c) ∨ Hits ds r c := by
  simp [Hits]

theorem lastDrawn_of_not_hits {ds : List Draw} {r c : Nat} (h : ¬ Hits ds r c) (x : Cell) : lastDrawn r c ds x = x := by
  induction ds generalizing x with
  | nil => rfl
  | cons d ds ih =>
    obtain ⟨hd, hds⟩ := not_or.mp (hits_cons.not.mp h)
    rw [lastDrawn_cons, if_neg hd, ih hds]

/-- When all drawings on a cell agree and there is one, the cell is theirs. -/
theorem lastDrawn_of_hits {ds : List Draw} {r c : Nat} {y : Cell} (h : Hits ds r c)
    (hagree : ∀ d ∈ ds, d.r = r → d.c = c → d.cell = y) (x : Cell) : lastDrawn r c ds x = y := by
  induction ds generalizing x with
  | nil => simp [Hits] at h
  | cons d ds ih =>
    rw [lastDrawn_cons]
    by_cases hds : Hits ds r c
    · exact ih hds (fun e he => hagree e (List.mem_cons_of_mem _ he)) _
    · have hd := (hits_cons.mp h).resolve_right hds
      rw [lastDrawn_of_not_hits hds, if_pos hd, hagree d List.mem_cons_self hd.1 hd.2]

theorem lastDrawn_eq_ite {ds : List Draw} {r c : Nat} {y : Cell} (hagree : ∀ d ∈ ds, d.r = r → d.c = c → d.cell = y)
    {P : Prop} [Decidable P] (hits : Hits ds r c ↔ P) (x : Cell) : lastDrawn r c ds x = if P then y else x := by
  split
  next h => exact lastDrawn_of_hits (hits.mpr h) hagree x
  next h => exact lastDrawn_of_not_hits (hits.not.mpr h) x

/-! ### Timing patterns and information areas -/

/-- The timing patterns: dark on even positions (R92). -/
theorem lastDrawn_timingDraws {n r c : Nat} (hr : r < n) (hc : c < n) (x : Cell) :
    lastDrawn r c (timingDraws n) x =
      if r = 6 ∨ c = 6 then Cell.fn (decide ((if r = 6 then c else r) % 2 = 0)) false else x := by
  refine lastDrawn_eq_ite (fun d hd hdr hdc => ?_) (hits_timingDraws hr hc) x
  obtain ⟨i, -, hd⟩ := List.mem_flatMap.mp hd
  have hdraw : (6 = (r : Int) ∧ i = c ∨ i = r ∧ 6 = (c : Int)) ∧ d.cell = Cell.fn (decide (i % 2 = 0)) false := by
    rcases List.mem_pair.mp hd with rfl | rfl
    exacts [⟨.inl ⟨hdr, hdc⟩, rfl⟩, ⟨.inr ⟨hdr, hdc⟩, rfl⟩]
  obtain ⟨hpos, hcell⟩ := hdraw
  have hcolour : i % 2 = 0 ↔ (if r = 6 then c else r) % 2 = 0 := by split <;> omega
  rw [hcell, decide_eq_decide.mpr hcolour]

/-- The reserved cells are light with RSV = 1 (R99). -/
theorem lastDrawn_reserveDraws (cells : List (Nat × Nat × Nat)) (r c : Nat) (x : Cell) :
    lastDrawn r c (cells.map reserveDraw) x = if (r, c) ∈ cells.map Prod.snd then Cell.fn false true else x := by
  refine lastDrawn_eq_ite (fun d hd _ _ => ?_) hits_reserveDraws x
  obtain ⟨p, -, rfl⟩ := List.mem_map.mp hd
  rfl

/-- The cells listed for the format information are those of R96. -/
theorem mem_formatCells {v : Nat} (h1 : 1 ≤ v) {r c : Nat} (hr : r < sideOf v) (hc : c < sideOf v) :
    (r, c) ∈ (formatCells (sideOf v)).map Prod.snd ↔ isFormatCell v r c = true := by
  have hn : 21 ≤ sideOf v := by simp only [sideOf]; omega
  have hA : (r, c) ∈ formatCellsA.map Prod.snd ↔ (c = 8 ∧ r ≤ 8 ∧ r ≠ 6) ∨ (r = 8 ∧ c ≤ 8 ∧ c ≠ 6) := by
    simp only [formatCellsA, List.map_cons, List.map_nil, List.mem_cons, List.not_mem_nil, or_false, Prod.mk.injEq]
    omega
  have hB : (r, c) ∈ (formatCellsB (sideOf v)).map Prod.snd ↔
      (r = 8 ∧ sideOf v - 8 ≤ c) ∨ (c = 8 ∧ sideOf v - 7 ≤ r) := by
    simp only [formatCellsB, List.map_append, List.map_map, List.mem_append, List.mem_map, List.mem_range,
      Function.comp_apply, Prod.mk.injEq]
    refine or_congr ⟨?_, fun h => ⟨sideOf v - 1 - c, ?_⟩⟩ ⟨?_, fun h => ⟨r + 7 - sideOf v, ?_⟩⟩
    · rintro ⟨i, hi, rfl, rfl⟩
      omega
    · omega
    · rintro ⟨i, hi, rfl, rfl⟩
      omega
    · omega
  rw [formatCells, List.map_append, List.mem_append, hA, hB, isFormatCell, decide_eq_true_iff]
  simp only [sideOf]
  omega

/-- The cells listed for the version information are those of R97. -/
theorem mem_versionCells {v r c : Nat} : (r, c) ∈ (versionCells v).map Prod.snd ↔ isVersionCell v r c = true := by
  rw [isVersionCell, decide_eq_true_iff, versionCells]
  split
  next h7 =>
    simp only [List.map_append, List.map_map, List.mem_append, List.mem_map, List.mem_range, Function.comp_apply,
      Prod.mk.injEq, h7, true_and, sideOf]
    refine or_congr ⟨?_, fun h => ⟨3 * r + (c - (4 * v + 6)), ?_⟩⟩ ⟨?_, fun h => ⟨3 * c + (r - (4 * v + 6)), ?_⟩⟩
    · rintro ⟨i, hi, rfl, rfl⟩
      omega
    · omega
    · rintro ⟨i, hi, rfl, rfl⟩
      omega
    · omega
  next h7 => simp [h7]

/-! ### Square patterns -/

/-- A drawing of a square pattern on (r, c) has the colour of the ring of (r, c). -/
theorem cell_of_mem_squareDraws {k : Nat} {dark : Nat → Bool} {cr cc r c : Nat} {d : Draw}
    (hd : d ∈ squareDraws k dark cr cc) (hr : d.r = r) (hc : d.c = c) :
    d.cell = Cell.fn (dark (ring r c cr cc)) false := by
  obtain ⟨dr, -, hd⟩ := List.mem_flatMap.mp hd
  obtain ⟨dc, -, rfl⟩ := List.mem_map.mp hd
  simp only at hr hc
  have hring : max dr.natAbs dc.natAbs = ring r c cr cc := by
    simp only [ring, gap]
    omega
  rw [← hring]

theorem hits_squareDraws_iff_ring {k : Nat} {dark : Nat → Bool} {cr cc r c : Nat} :
    Hits (squareDraws k dark cr cc) r c ↔ ring r c cr cc ≤ k := by
  rw [hits_squareDraws]
  simp only [ring, gap]
  omega

theorem ring_triangle {r c r₁ c₁ r₂ c₂ k : Nat} (h₁ : ring r c r₁ c₁ ≤ k) (h₂ : ring r c r₂ c₂ ≤ k) :
    ring r₁ c₁ r₂ c₂ ≤ 2 * k := by
  simp only [ring, gap] at h₁ h₂ ⊢
  omega

/-- Square patterns that lie apart: the cell is that of the one that reaches it, if one does. -/
theorem lastDrawn_squares {k : Nat} {dark : Nat → Bool} {ps : List (Nat × Nat)}
    (hapart : ∀ p ∈ ps, ∀ q ∈ ps, p ≠ q → 2 * k < ring p.1 p.2 q.1 q.2) {r c : Nat} (x : Cell) :
    lastDrawn r c (ps.flatMap fun p => squareDraws k dark p.1 p.2) x =
      ((ps.filter fun p => decide (ring r c p.1 p.2 ≤ k)).head?.elim x fun p =>
        Cell.fn (dark (ring r c p.1 p.2)) false) := by
  have hhits : Hits (ps.flatMap fun p => squareDraws k dark p.1 p.2) r c ↔ ∃ p ∈ ps, ring r c p.1 p.2 ≤ k := by
    simp only [hits_flatMap, hits_squareDraws_iff_ring]
  rw [List.head?_filter]
  cases hp : ps.find? fun p => decide (ring r c p.1 p.2 ≤ k) with
  | none =>
    have hno := List.find?_eq_none.mp hp
    exact lastDrawn_of_not_hits (hhits.not.mpr fun ⟨p, hp, hring⟩ => hno p hp (by simpa using hring)) x
  | some p =>
    have hmem := List.mem_of_find?_eq_some hp
    have hring : ring r c p.1 p.2 ≤ k := by simpa using List.find?_some hp
    refine lastDrawn_of_hits (hhits.mpr ⟨p, hmem, hring⟩) (fun d hd hr hc => ?_) x
    obtain ⟨q, hq, hd⟩ := List.mem_flatMap.mp hd
    have hring' : ring r c q.1 q.2 ≤ k := hits_squareDraws_iff_ring.mp ⟨d, hd, hr, hc⟩
    have hnear := ring_triangle hring hring'
    obtain rfl : p = q := by
      by_contra hne
      exact absurd (hapart p hmem q hq hne) (by omega)
    exact cell_of_mem_squareDraws hd hr hc

/-- The finder patterns stand apart, so their drawings leave the cell of the one that reaches it (R93). -/
theorem lastDrawn_finderDraws (v : Nat) {r c : Nat} (x : Cell) :
    lastDrawn r c (finderDraws (sideOf v)) x = (finderNear v r c).head?.elim x fun p =>
      Cell.fn (decide (ring r c p.1 p.2 ≠ 2 ∧ ring r c p.1 p.2 ≠ 4)) false := by
  have hdraws : finderDraws (sideOf v) = [(3, 3), (3, 4 * v + 13), (4 * v + 13, 3)].flatMap
      fun p : Nat × Nat => squareDraws 4 (fun d => decide (d ≠ 2 ∧ d ≠ 4)) p.1 p.2 := by
    have hfar : ((sideOf v : Int) - 4) = ((4 * v + 13 : Nat) : Int) := by simp only [sideOf]; omega
    simp [finderDraws, hfar]
  rw [hdraws, lastDrawn_squares, finderNear]
  simp [ring, gap]

/-- The centres the model lists are those of R95: every pair of coordinates but the three in the corners of the finders. -/
theorem alignCentres_eq : ∀ v ≤ 40, alignCentres (alignOf v) = (alignOf v).flatMap fun p => (alignOf v).filterMap fun q =>
    if ¬ (p = 6 ∧ q = 6) ∧ ¬ (p = 6 ∧ q = 4 * v + 10) ∧ ¬ (p = 4 * v + 10 ∧ q = 6) then some (p, q) else none := by
  decide +kernel

theorem alignNear_eq {v : Nat} (hv : v ≤ 40) (r c : Nat) :
    alignNear v r c = (alignCentres (alignOf v)).filter fun p => decide (ring r c p.1 p.2 ≤ 2) := by
  rw [alignCentres_eq v hv, alignNear, List.filter_flatMap]
  refine List.flatMap_congr fun p _ => ?_
  rw [List.filter_filterMap]
  refine List.filterMap_congr fun q _ => ?_
  by_cases hring : ring r c p q ≤ 2
  · simp only [hring, true_and]
    split <;> simp [Option.filter, hring]
  · simp only [hring, false_and, if_false]
    split <;> simp [Option.filter, hring]

/-- Two coordinates of P(V) are further apart than an alignment pattern is wide (R94). -/
theorem alignOf_gap : ∀ v ≤ 40, ∀ p ∈ alignOf v, ∀ q ∈ alignOf v, p ≠ q → 5 ≤ gap p q := by decide +kernel

theorem lastDrawn_alignDraws {v : Nat} (hv : v ≤ 40) {r c : Nat} (x : Cell) :
    lastDrawn r c (alignDraws v) x = (alignNear v r c).head?.elim x fun p =>
      Cell.fn (decide (ring r c p.1 p.2 ≠ 1)) false := by
  rw [alignDraws, lastDrawn_squares, alignNear_eq hv]
  intro p hp q hq hne
  obtain ⟨hp1, hp2⟩ := mem_of_mem_alignCentres hp
  obtain ⟨hq1, hq2⟩ := mem_of_mem_alignCentres hq
  have hfar : p.1 ≠ q.1 ∨ p.2 ≠ q.2 := not_and_or.mp fun h => hne (Prod.ext h.1 h.2)
  have hrow := alignOf_gap v hv _ hp1 _ hq1
  have hcol := alignOf_gap v hv _ hp2 _ hq2
  simp only [ring]
  omega

/-! ### The whole symbol -/

/-- The cell BUILD_FUNC leaves is the one R100 names. -/
theorem get_funcGrid_eq_drawnCell {v : Nat} (h1 : 1 ≤ v) (hv : v ≤ 40) {r c : Nat} (hr : r < sideOf v)
    (hc : c < sideOf v) : (funcGrid v).get r c = drawnCell v r c := by
  have hdark : ((sideOf v : Int) - 8 = r ∧ (8 : Int) = c) ↔ r = 4 * v + 9 ∧ c = 8 := by simp only [sideOf]; omega
  rw [get_funcGrid v hr hc]
  simp only [funcDraws, lastDrawn_append, lastDrawn_singleton, lastDrawn_reserveDraws, lastDrawn_alignDraws hv,
    lastDrawn_finderDraws v, lastDrawn_timingDraws hr hc, mem_formatCells h1 hr hc, mem_versionCells, hdark, drawnCell,
    Cell.fn, Cell.unset]
  refine if_congr Iff.rfl rfl (if_congr Iff.rfl rfl (if_congr Iff.rfl rfl ?_))
  cases alignNear v r c with
  | cons p ps => rfl
  | nil =>
    cases finderNear v r c with
    | cons p ps => rfl
    | nil =>
      by_cases h6 : r = 6 <;> simp [h6]

end Sys2Proof.Machine
end

section
/-! PROOFS. The reserved modules BUILD_FUNC leaves (42_matrix_builder.md R96, R97, R101). -/

namespace Sys2Proof.Machine

open Sys2Proof.Claims

/-- The cells of both information areas (R96, R97). -/
def infoSpots (v : Nat) : List (Nat × Nat) := (formatCells (sideOf v) ++ versionCells v).map Prod.snd

/-- No cell of an information area is listed twice. -/
theorem infoSpots_nodup : ∀ v ≤ 40, 1 ≤ v → (infoSpots v).Nodup := by decide +kernel

theorem infoSpots_length (v : Nat) : (infoSpots v).length = if v < 7 then 30 else 66 := by
  have hformat : (formatCells (sideOf v)).length = 30 := rfl
  rw [infoSpots, List.length_map, List.length_append, hformat, versionCells]
  split
  next h7 => rw [if_neg (by omega)]; rfl
  next h7 => rw [if_pos (by omega)]; rfl

theorem infoSpots_lt {v : Nat} (h1 : 1 ≤ v) {r c : Nat} (h : (r, c) ∈ infoSpots v) : r < sideOf v ∧ c < sideOf v := by
  have hn : 21 ≤ sideOf v := by simp only [sideOf]; omega
  obtain ⟨p, hp, hrc⟩ := List.mem_map.mp h
  rcases List.mem_append.mp hp with hp | hp
  · simpa only [hrc] using formatCells_lt hn hp
  · simpa only [hrc] using versionCells_lt hp

/-- Of the entries of R100 only the information areas are reserved, and the dark module is in none of them. -/
theorem drawnCell_rsv (v r c : Nat) :
    (drawnCell v r c).rsv = true ↔ isVersionCell v r c = true ∨ isFormatCell v r c = true := by
  unfold drawnCell
  split
  next hdark =>
    simp only [isFormatCell, isVersionCell, decide_eq_true_iff, reduceCtorEq, false_iff]
    omega
  next =>
    split
    next h => simp only [h, true_or]
    next hver =>
      split
      next h => simp only [h, or_true]
      next hfmt =>
        simp only [hver, hfmt, or_self]
        cases alignNear v r c with
        | cons p ps => rfl
        | nil =>
          cases finderNear v r c with
          | cons p ps => rfl
          | nil => dsimp only; split_ifs <;> rfl

/-- BUILD_FUNC reserves the cells of the information areas and no other (R96 to R100). -/
theorem funcGrid_rsv {v : Nat} (h1 : 1 ≤ v) (hv : v ≤ 40) {r c : Nat} (hr : r < sideOf v) (hc : c < sideOf v) :
    ((funcGrid v).get r c).rsv = true ↔ (r, c) ∈ infoSpots v := by
  rw [infoSpots, List.map_append, List.mem_append, mem_formatCells h1 hr hc, mem_versionCells,
    get_funcGrid_eq_drawnCell h1 hv hr hc, drawnCell_rsv, or_comm]

/-- The number of reserved modules (R101). -/
theorem funcGrid_rsv_count {v : Nat} (h1 : 1 ≤ v) (hv : v ≤ 40) :
    ((positions (sideOf v)).filter fun p => ((funcGrid v).get p.1 p.2).rsv).length = if v < 7 then 30 else 66 := by
  rw [← infoSpots_length]
  refine ((List.perm_ext_iff_of_nodup ((positions_nodup _).filter _) (infoSpots_nodup v hv h1)).mpr fun p => ?_).length_eq
  rw [List.mem_filter, mem_positions]
  constructor
  · rintro ⟨⟨hr, hc⟩, h⟩
    exact (funcGrid_rsv h1 hv hr hc).mp h
  · intro h
    obtain ⟨hr, hc⟩ := infoSpots_lt h1 h
    exact ⟨⟨hr, hc⟩, (funcGrid_rsv h1 hv hr hc).mpr h⟩

end Sys2Proof.Machine
end

section
/-! PROOFS. The traversal visits the column pairs from right to left, the direction alternating from upward
(42_matrix_builder.md R102). -/

namespace Sys2Proof.Machine

open Sys2Proof.Claims

/-- The pairs of the given right columns, numbered from `m`: upward at even numbers (R102). -/
def alternating (cols : List Nat) (m : Nat) : List (Nat × Bool) :=
  (cols.zipIdx m).map fun p => (p.1, decide (p.2 % 2 = 0))

theorem alternating_cons (col : Nat) (cols : List Nat) (m : Nat) :
    alternating (col :: cols) m = (col, decide (m % 2 = 0)) :: alternating cols (m + 1) := rfl

theorem not_decide_even (m : Nat) : (!decide (m % 2 = 0)) = decide ((m + 1) % 2 = 0) := by
  rw [← decide_not]
  exact decide_eq_decide.mpr (by omega)

/-- The traversal from the right column 2·k + 6 on. -/
theorem zigzagPairs_eq (fuel k m : Nat) : zigzagPairs (fuel + k + 4) (2 * k + 6) (decide (m % 2 = 0)) =
    alternating ((List.range k).map (fun i => 2 * k + 6 - 2 * i) ++ [5, 3, 1]) m := by
  induction k generalizing m with
  | zero =>
    simp only [zigzagPairs, not_decide_even]
    rfl
  | succ k ih =>
    have htail : (List.range (k + 1)).map (fun i => 2 * (k + 1) + 6 - 2 * i) =
        (2 * (k + 1) + 6) :: (List.range k).map fun i => 2 * k + 6 - 2 * i := by
      rw [List.range_succ_eq_map, List.map_cons, List.map_map]
      congr 1
      refine List.map_congr_left fun i _ => ?_
      simp only [Function.comp_apply]
      omega
    have hstep : zigzagPairs (fuel + (k + 1) + 4) (2 * (k + 1) + 6) (decide (m % 2 = 0)) =
        (2 * (k + 1) + 6, decide (m % 2 = 0)) :: zigzagPairs (fuel + k + 4) (2 * k + 6) (!decide (m % 2 = 0)) := by
      rw [show fuel + (k + 1) + 4 = fuel + k + 4 + 1 by omega, zigzagPairs, if_neg (by omega), if_neg (by omega)]
      rfl
    rw [hstep, not_decide_even, ih, htail, List.cons_append, alternating_cons]

/-- The pairs of the model's traversal are those of `rightColumns`. -/
theorem zigzagPairs_sideOf (v : Nat) :
    zigzagPairs (sideOf v) (sideOf v - 1) true = alternating (rightColumns (sideOf v)) 0 := by
  have hfuel : sideOf v = 2 * v + 8 + (2 * v + 5) + 4 := by simp only [sideOf]; omega
  have hcol : sideOf v - 1 = 2 * (2 * v + 5) + 6 := by simp only [sideOf]; omega
  have hpairs : (sideOf v - 1) / 2 - 3 = 2 * v + 5 := by omega
  rw [rightColumns, hpairs, hcol, ← zigzagPairs_eq (2 * v + 8), ← hfuel]
  rfl

/-- The cells of one pair that are no function modules, row by row in its direction. -/
theorem pairCells_filter (n : Nat) (g : Grid) (p : Nat × Nat) :
    ((pairCells n (p.1, decide (p.2 % 2 = 0))).filter fun q => !(g.get q.1 q.2).func) =
      (List.range n).flatMap fun v => [p.1, p.1 - 1].filterMap fun c =>
        let r := if p.2 % 2 = 0 then n - 1 - v else v
        if (g.get r c).func then none else some (r, c) := by
  rw [pairCells, List.filter_flatMap]
  refine List.flatMap_congr fun v _ => ?_
  simp only [decide_eq_true_eq]
  generalize (if p.2 % 2 = 0 then n - 1 - v else v) = r
  cases hright : (g.get r p.1).func <;> cases hleft : (g.get r (p.1 - 1)).func <;> simp [hright, hleft]

/-- The model's traversal is the order of R102 over its FUNC plane. -/
theorem zigzag_eq_placementOrder (v : Nat) (g : Grid) :
    zigzag (sideOf v) g = placementOrder (sideOf v) fun r c => (g.get r c).func := by
  rw [zigzag, zigzagPairs_sideOf, alternating, List.flatMap_map, List.filter_flatMap, placementOrder]
  exact List.flatMap_congr fun p _ => pairCells_filter _ g p

theorem rightColumns_lt {v c : Nat} (h : c ∈ rightColumns (sideOf v)) : c < sideOf v := by
  have hn : 17 ≤ sideOf v := by simp only [sideOf]; omega
  simp only [rightColumns, List.mem_append, List.mem_map, List.mem_range] at h
  rcases h with ⟨i, hi, rfl⟩ | h
  · omega
  · simp at h
    omega

/-- The order reads the FUNC plane inside the symbol alone. -/
theorem placementOrder_eq_of_agree {v : Nat} {f g : Nat → Nat → Bool}
    (h : ∀ r c, r < sideOf v → c < sideOf v → f r c = g r c) :
    placementOrder (sideOf v) f = placementOrder (sideOf v) g := by
  refine List.flatMap_congr fun p hp => List.flatMap_congr fun i hi => List.filterMap_congr fun c hc => ?_
  have hcol := rightColumns_lt (List.fst_mem_of_mem_zipIdx hp)
  have hrow := List.mem_range.mp hi
  have hc : c < sideOf v := by rcases List.mem_pair.mp hc with rfl | rfl <;> omega
  have hr : (if p.2 % 2 = 0 then sideOf v - 1 - i else i) < sideOf v := by split <;> omega
  simp only [h _ _ hr hc]

end Sys2Proof.Machine
end

section
/-! PROOFS. PLACE on any symbol with as many cells in its order as bits to place: what it leaves in each cell, and that its
checks hold (42_matrix_builder.md R103, R104). -/

namespace Sys2Proof.Machine

open Sys2Proof.Claims

/-- The order PLACE follows is the order in the stored symbol. -/
theorem zigzag_loadGrid (s : State) : zigzag s.side (s.loadGrid s.side) = orderOf s := by
  rw [State.side, zigzag_eq_placementOrder, Claims.orderOf]
  exact placementOrder_eq_of_agree fun r c hr hc => by rw [State.get_loadGrid s hr hc]

/-! ### The cells PLACE writes -/

/-- PLACE keeps the cells outside its order. -/
theorem get_placeBits_of_not_mem {n : Nat} {g : Grid} (hg : g.Square n) {order : List (Nat × Nat)}
    (horder : ∀ p ∈ order, p.1 < n ∧ p.2 < n) {r c : Nat} (h : (r, c) ∉ order) (bits : List Bool) :
    (placeBits g order bits).get r c = g.get r c := by
  induction order generalizing g bits with
  | nil => rfl
  | cons p order ih =>
    cases bits with
    | nil => rfl
    | cons b bits =>
      obtain ⟨hp, horder⟩ := List.forall_mem_cons.mp horder
      obtain ⟨hne, h⟩ := not_or.mp (List.mem_cons.not.mp h)
      have hg' : (g.put p.1 p.2 (Cell.data b)).Square n := Grid.square_update hg _ _ _
      rw [placeBits_cons, ih hg' horder h, Grid.put, Grid.get_update hg hp.1 hp.2]
      exact if_neg fun heq => hne (Prod.ext heq.1 heq.2)

/-- PLACE writes bit j into the j-th cell of its order (R104). -/
theorem get_placeBits {n : Nat} {g : Grid} (hg : g.Square n) {order : List (Nat × Nat)} (hnodup : order.Nodup)
    (horder : ∀ p ∈ order, p.1 < n ∧ p.2 < n) {bits : List Bool} {j : Nat} {p : Nat × Nat} {b : Bool}
    (hp : order[j]? = some p) (hb : bits[j]? = some b) : (placeBits g order bits).get p.1 p.2 = Cell.data b := by
  induction order generalizing g bits j with
  | nil => simp at hp
  | cons q order ih =>
    cases bits with
    | nil => simp at hb
    | cons b' bits =>
      obtain ⟨hq, hnodup⟩ := List.nodup_cons.mp hnodup
      obtain ⟨hqn, horder⟩ := List.forall_mem_cons.mp horder
      rw [placeBits_cons]
      have hg' : (g.put q.1 q.2 (Cell.data b')).Square n := Grid.square_update hg _ _ _
      cases j with
      | zero =>
        obtain rfl : q = p := by simpa using hp
        obtain rfl : b' = b := by simpa using hb
        rw [get_placeBits_of_not_mem hg' horder hq, Grid.put, Grid.get_update hg hqn.1 hqn.2, if_pos ⟨rfl, rfl⟩]
      | succ j => exact ih hg' hnodup horder (by simpa using hp) (by simpa using hb)

/-- The bits placed are those of the stream, most significant first, then light ones (R103). -/
theorem placedBits_getElem? (s : State) {j : Nat} (hj : j < 8 * s.total + remOf s.version) :
    (placedBits s.stream (remOf s.version))[j]? = some (streamBit s j) := by
  have hbits : (s.stream.flatMap codewordBits).length = 8 * s.total := by
    rw [length_flatMap_const (e := 8) fun _ _ => by simp [codewordBits], State.stream, State.readBlock_length, Nat.mul_comm]
  rw [placedBits, streamBit]
  split
  next h =>
    rw [List.getElem?_append_left (by omega), State.stream, State.readBlock_eq, List.flatMap_map]
    have hsplit : j = j / 8 * 8 + j % 8 := by omega
    conv_lhs => rw [hsplit]
    rw [getElem?_flatMap_range (fun b _ => by simp [codewordBits]) (by omega) (by omega)]
    simp [codewordBits, Nat.mod_lt, Config.cwbufBase]
  next h =>
    rw [List.getElem?_append_right (by omega), hbits, List.getElem?_replicate, if_pos (by omega)]

/-! ### PLACE on any symbol of the right count -/

theorem placedGrid_eq (s : State) : placedGrid s =
    placeBits (s.loadGrid s.side) (orderOf s) (placedBits s.stream (remOf s.version)) := by
  rw [placedGrid, zigzag_loadGrid]

section
variable {s : State} (hv : Valid s)
include hv

theorem traversal_side_perm : (traversal s.side).Perm ((positions s.side).filter fun p => p.2 ≠ 6) :=
  traversal_perm hv.2

theorem orderOf_nodup : (orderOf s).Nodup := by
  rw [← zigzag_loadGrid, zigzag_eq]
  exact ((traversal_side_perm hv).nodup_iff.mpr ((positions_nodup _).filter _)).filter _

/-- The order has the cells outside the timing column that are no function modules (R102). -/
theorem mem_orderOf {r c : Nat} : (r, c) ∈ orderOf s ↔
    ((r < s.side ∧ c < s.side) ∧ c ≠ 6) ∧ (s.readCell r c).func = false := by
  rw [← zigzag_loadGrid, zigzag_eq, List.mem_filter, (traversal_side_perm hv).mem_iff, List.mem_filter, mem_positions,
    decide_eq_true_iff]
  refine and_congr_right fun ⟨⟨hr, hc⟩, _⟩ => ?_
  rw [State.get_loadGrid s hr hc, Bool.not_eq_true']

theorem orderOf_lt : ∀ p ∈ orderOf s, p.1 < s.side ∧ p.2 < s.side := fun _ h => ((mem_orderOf hv).mp h).1.1

/-- The j-th cell of the order gets bit j (R104). -/
theorem placedGrid_of_order (hlen : (orderOf s).length = 8 * s.total + remOf s.version) {j : Nat} {p : Nat × Nat}
    (hp : (orderOf s)[j]? = some p) : (placedGrid s).get p.1 p.2 = Cell.data (streamBit s j) := by
  have hj := (List.getElem?_eq_some_iff.mp hp).1
  rw [placedGrid_eq]
  exact get_placeBits (s.square_loadGrid _) (orderOf_nodup hv) (orderOf_lt hv) hp (placedBits_getElem? s (hlen ▸ hj))

/-- Function modules keep their cells (R104). -/
theorem placedGrid_of_func {r c : Nat} (hr : r < s.side) (hc : c < s.side) (hf : (s.readCell r c).func = true) :
    (placedGrid s).get r c = s.readCell r c := by
  have hno : (r, c) ∉ orderOf s := fun h => by
    rw [((mem_orderOf hv).mp h).2] at hf
    cases hf
  rw [placedGrid_eq, get_placeBits_of_not_mem (s.square_loadGrid _) (orderOf_lt hv) hno, State.get_loadGrid s hr hc]

/-- PLACE's checks hold when its order has 8·T + REM cells and every cell outside it is set (R104). -/
theorem bodyPlace_done_of_order (hlen : (orderOf s).length = 8 * s.total + remOf s.version)
    (hset : ∀ r c, r < s.side → c < s.side → (r, c) ∉ orderOf s → (s.readCell r c).set = true) :
    bodyPlace s = .done (s.storeGrid (placedGrid s)) := by
  have hall : (placedGrid s).allSet = true := by
    refine Grid.allSet_of_get (square_placedGrid s) fun r c hr hc => ?_
    by_cases h : (r, c) ∈ orderOf s
    · obtain ⟨j, hj⟩ := List.mem_iff_getElem?.mp h
      rw [placedGrid_of_order hv hlen hj]
      rfl
    · refine placeBits_keeps_set ?_ _ _
      rw [State.get_loadGrid s hr hc]
      exact hset r c hr hc h
  rcases bodyPlace_cases s with ⟨-, -, h⟩ | ⟨hno, -⟩
  exacts [h, absurd ⟨zigzag_loadGrid s ▸ hlen, hall⟩ hno]

end

/-! ### Completion of a command that stores the symbol -/

@[simp] theorem readRam_finish (i : Instr) (s : State) (a : Nat) : (finish i s).readRam a = s.readRam a := rfl

@[simp] theorem readCell_finish (i : Instr) (s : State) (r c : Nat) : (finish i s).readCell r c = s.readCell r c := rfl

/-- Of the registers the completion changes STATUS alone (R71). -/
theorem finish_storeGrid (i : Instr) (s : State) (g : Grid) : finish i (s.storeGrid g) =
    { s with
      status := { s.status with phase := phaseAfter i s.status.phase, done := true, busy := false }
      mem := (finish i (s.storeGrid g)).mem } := rfl

end Sys2Proof.Machine
end

section
/-! PROOFS. The statements of 42_matrix_builder.md. -/

namespace Sys2Proof.Proofs

open Sys2Proof.Machine Sys2Proof.Claims

/-- Settles O51: each group of drawings leaves one cell where it draws, and the groups are drawn in the rising order of R100. -/
theorem lastDrawingWins : Obligations.LastDrawingWins :=
  fun _ _ _ h1 hv hr hc => get_funcGrid_eq_drawnCell h1 hv hr hc

/-- Settles O52: the modules drawn on are counted, and the reserved ones are the listed cells of the information areas. -/
theorem functionModuleCounts : Obligations.FunctionModuleCounts :=
  fun v h1 hv => ⟨funcGrid_light_count h1 hv, Nat.div_add_mod (rawOf v) 8, funcGrid_rsv_count h1 hv⟩

/-- Settles O53: the pairs of the traversal are the numbered right columns, and inside a pair both skip the same cells. -/
theorem traversalFollowsTheColumnPairs : Obligations.TraversalFollowsTheColumnPairs := by
  intro v func _ _
  refine (zigzag_eq_placementOrder v _).trans (placementOrder_eq_of_agree fun r c hr hc => ?_)
  exact congrArg Cell.func (Grid.get_tabulate _ hr hc)

/-- Settles O12: BUILD_FUNC stores `funcGrid`, whose cells are those of R100. -/
theorem buildFuncCompletes : Obligations.BuildFuncCompletes := by
  intro s hb hop hv
  have hgrid := square_funcGrid s.version
  have hbody : bodyOf .buildFunc s = .done (s.storeGrid (funcGrid s.version)) := rfl
  refine ⟨_, exec_finishes (by decide) hb hop hbody, finish_storeGrid .buildFunc s _, fun r c hr hc => ?_, fun a ha => ?_⟩
  · rw [readCell_finish, State.readCell_storeSymbol ((valid_iff s).mpr hv) hgrid hr hc]
    exact get_funcGrid_eq_drawnCell hv.1 hv.2 hr hc
  · rw [readRam_finish, (SymbolOnly.storeGrid hv hgrid).2 a ha]

/-- Settles O13: a cell outside the order is a function module, so it is set and both checks of PLACE hold. -/
theorem placeCompletes : Obligations.PlaceCompletes := by
  intro s hb hop hv hlen hset h6
  have hgrid := square_placedGrid s
  have hbody : bodyOf .place s = .done (s.storeGrid (placedGrid s)) := by
    refine bodyPlace_done_of_order hv hlen fun r c hr hc hno => hset r c hr hc ?_
    by_contra hf
    have hc6 : c ≠ 6 := fun h => hf (h ▸ h6 r hr)
    exact hno ((mem_orderOf hv).mpr ⟨⟨⟨hr, hc⟩, hc6⟩, by simpa using hf⟩)
  refine ⟨_, exec_finishes (by decide) hb hop hbody, finish_storeGrid .place s _, fun j p hp => ?_,
    fun r c hr hc hf => ?_, fun a ha => ?_⟩
  · obtain ⟨hr, hc⟩ := orderOf_lt hv p (List.mem_of_getElem? hp)
    rw [readCell_finish, State.readCell_storeSymbol ((valid_iff s).mpr hv) hgrid hr hc, placedGrid_of_order hv hlen hp]
    rfl
  · rw [readCell_finish, State.readCell_storeSymbol ((valid_iff s).mpr hv) hgrid hr hc, placedGrid_of_func hv hr hc hf]
  · rw [readRam_finish, (SymbolOnly.storeGrid hv hgrid).2 a ha]

end Sys2Proof.Proofs
end

section
/-! PROOFS. The penalties (43_mask_optimizer.md R108 to R113) as sums over the rows and columns and over the positions of a
square array of colours, and their bounds. -/

namespace Sys2Proof.Machine

open Sys2Proof.Claims

/-! ### Rows and columns of a square array -/

/-- A list is its entries by position. -/
theorem map_getD_range {α : Type} {l : List α} {n : Nat} (h : l.length = n) (d : α) :
    (List.range n).map (fun i => l.getD i d) = l := by
  refine List.ext_getElem (by simp [h]) fun i hi hi' => ?_
  rw [List.getElem_map, List.getElem_range, List.getD_eq_getElem _ _ hi']

section
variable {n : Nat} {x : List (List Bool)} (hx : IsSquareArray n x)
include hx

theorem row_length {r : Nat} (hr : r < n) : (x.getD r []).length = n := by
  have hr' : r < x.length := by rw [hx.1]; exact hr
  rw [List.getD_eq_getElem _ _ hr']
  exact hx.2 _ (List.getElem_mem hr')

/-- The rows, each written out by its colours. -/
theorem rows_eq : (List.range n).map (fun r => (List.range n).map fun c => colourAt x r c) = x := by
  refine Eq.trans (List.map_congr_left fun r hr => ?_) (map_getD_range hx.1 [])
  exact map_getD_range (row_length hx (List.mem_range.mp hr)) false

theorem columnsOf_eq : columnsOf n x = (List.range n).map fun c => (List.range n).map fun r => colourAt x r c := by
  refine List.map_congr_left fun c _ => ?_
  conv_lhs => rw [← map_getD_range hx.1 [], List.map_map]
  rfl

/-- The lines the model scores are the n rows and the n columns (R109, R111). -/
theorem linesOf_eq_allLines : linesOf n x = allLines n x := by
  rw [linesOf, columnsOf_eq hx, allLines, rows_eq hx]

end

theorem allLines_length (n : Nat) (x : List (List Bool)) : (allLines n x).length = 2 * n := by
  rw [allLines, List.length_append, List.length_map, List.length_map, List.length_range, two_mul]

theorem length_of_mem_allLines {n : Nat} {x : List (List Bool)} {l : List Bool} (h : l ∈ allLines n x) : l.length = n := by
  simp only [allLines, List.mem_append, List.mem_map] at h
  rcases h with ⟨i, -, rfl⟩ | ⟨i, -, rfl⟩ <;> simp

/-- A bound on each of the 2·n lines bounds their sum. -/
theorem sum_allLines_le {n b : Nat} {x : List (List Bool)} {f : List Bool → Nat}
    (h : ∀ l : List Bool, l.length = n → f l ≤ b) : ((allLines n x).map f).sum ≤ 2 * n * b := by
  have hsum := List.sum_le_card_nsmul ((allLines n x).map f) b fun y hy => by
    obtain ⟨l, hl, rfl⟩ := List.mem_map.mp hy
    exact h l (length_of_mem_allLines hl)
  rwa [List.length_map, allLines_length, smul_eq_mul] at hsum

/-! ### Positions -/

theorem positions_length (m : Nat) : (positions m).length = m ^ 2 := by
  simp [positions, sq]

/-- Positions counted row by row. -/
theorem length_filter_positions (m : Nat) (p : Nat × Nat → Bool) : ((positions m).filter p).length =
    ((List.range m).map fun r => ((List.range m).filter fun c => p (r, c)).length).sum := by
  simp only [positions, List.filter_flatMap, List.length_flatMap, List.filter_map, List.length_map]
  rfl

/-- Counting below n + 1: the first index, then the others shifted. -/
theorem length_filter_range_succ (n : Nat) (p : Nat → Bool) : ((List.range (n + 1)).filter p).length =
    (if p 0 then 1 else 0) + ((List.range n).filter fun i => p (i + 1)).length := by
  rw [List.range_succ_eq_map, List.filter_cons, List.filter_map]
  split
  · simp [Nat.add_comm, Function.comp_def]
  · simp [Function.comp_def]

/-! ### Rule 1 -/

/-- The split of a line into runs, with the run at hand in `a :: g` and the runs before it in `gs`. -/
theorem sum_splitBy_loop (l : List Bool) (a : Bool) (g : List Bool) (gs : List (List Bool)) :
    ((List.splitBy.loop (· == ·) l a g gs).map fun run => runScore run.length).sum =
      (gs.map fun run => runScore run.length).sum + runsFrom a (g.length + 1) l := by
  induction l generalizing a g gs with
  | nil => simp [List.splitBy.loop, runsFrom, Nat.add_comm]
  | cons b l ih =>
    rw [List.splitBy.loop, runsFrom]
    by_cases hab : b = a
    · simp [hab, ih]
    · have hab' : (a == b) = false := by simpa using fun h => hab h.symm
      simp only [hab', ih, hab, if_false, List.map_cons, List.sum_cons, List.length_reverse, List.length_cons,
        List.length_nil, Nat.zero_add]
      omega

/-- Rule 1 on one line scores its maximal runs (R109). -/
theorem pen1Line_eq (l : List Bool) : pen1Line l = ((l.splitBy (· == ·)).map fun run => runScore run.length).sum := by
  cases l with
  | nil => rfl
  | cons a l => rw [List.splitBy, sum_splitBy_loop, pen1Line]; simp

theorem runScore_le (run : Nat) : runScore run ≤ run - 2 := by
  unfold runScore
  split <;> omega

/-- The runs of a line score at most its length less two. -/
theorem runsFrom_le (prev : Bool) (run : Nat) (l : List Bool) : runsFrom prev run l ≤ run + l.length - 2 := by
  induction l generalizing prev run with
  | nil => exact runScore_le run
  | cons a l ih =>
    rw [runsFrom, List.length_cons]
    split
    · have := ih prev (run + 1)
      omega
    · have := runScore_le run
      have := ih a 1
      omega

theorem pen1Line_le (l : List Bool) : pen1Line l ≤ l.length - 2 := by
  cases l with
  | nil => exact Nat.zero_le _
  | cons a l =>
    have := runsFrom_le a 1 l
    rw [pen1Line, List.length_cons]
    omega

/-! ### Rule 2 -/

/-- The 2 × 2 block whose upper left cell is in column c of two adjacent rows is all one colour (R110). -/
def isBlock (l l' : List Bool) (c : Nat) : Bool :=
  decide (l.getD c false = l.getD (c + 1) false ∧ l.getD c false = l'.getD c false ∧
    l.getD c false = l'.getD (c + 1) false)

theorem isBlock_cons_succ (a b : Bool) (l l' : List Bool) (c : Nat) :
    isBlock (a :: l) (b :: l') (c + 1) = isBlock l l' c := rfl

/-- The one-coloured blocks of two adjacent rows, counted by their columns. -/
theorem blocksInRows_eq (l l' : List Bool) (h : l.length = l'.length) :
    blocksInRows l l' = ((List.range (l.length - 1)).filter (isBlock l l')).length := by
  induction l generalizing l' with
  | nil => simp [blocksInRows]
  | cons a l ih =>
    obtain ⟨c, l', rfl⟩ := List.exists_cons_of_length_eq_add_one h.symm
    have h : l.length = l'.length := by simpa using h
    cases l with
    | nil => simp [blocksInRows]
    | cons b l =>
      obtain ⟨d, l', rfl⟩ := List.exists_cons_of_length_eq_add_one h.symm
      have hfirst : isBlock (a :: b :: l) (c :: d :: l') 0 = decide (a = b ∧ a = c ∧ a = d) := rfl
      rw [blocksInRows, ih (d :: l') h]
      simp only [List.length_cons, Nat.add_sub_cancel, length_filter_range_succ _ (isBlock (a :: b :: l) _),
        isBlock_cons_succ, hfirst, decide_eq_true_eq]

/-- Rule 2 counts the positions of one-coloured blocks (R110). -/
theorem pen2_eq {n : Nat} {x : List (List Bool)} (hx : IsSquareArray n x) :
    pen2 x = 3 * ((positions (n - 1)).filter fun p => isBlock (x.getD p.1 []) (x.getD (p.1 + 1) []) p.2).length := by
  have hzip : List.zipWith blocksInRows x x.tail =
      (List.range (n - 1)).map fun r => blocksInRows (x.getD r []) (x.getD (r + 1) []) := by
    refine List.ext_getElem (by simp [hx.1]) fun r hr _ => ?_
    have hr1 : r + 1 < x.length := by
      rw [List.length_zipWith, List.length_tail] at hr
      omega
    simp [List.getD, hr1, show r < x.length by omega]
  rw [pen2, hzip, length_filter_positions]
  congr 2
  refine List.map_congr_left fun r hr => ?_
  have hr : r < n - 1 := List.mem_range.mp hr
  have hlen := row_length hx (r := r) (by omega)
  rw [blocksInRows_eq _ _ (hlen.trans (row_length hx (by omega)).symm), hlen]

theorem pen2_le {n : Nat} {x : List (List Bool)} (hx : IsSquareArray n x) : pen2 x ≤ 3 * (n - 1) ^ 2 := by
  rw [pen2_eq hx, ← positions_length]
  exact Nat.mul_le_mul_left _ (List.length_filter_le _ _)

/-! ### Rule 3 -/

/-- The window of 11 cells at position i equals one of the two patterns (R111). -/
def isFinderLike (l : List Bool) (i : Nat) : Bool :=
  decide ((l.drop i).take 11 = finderLike ∨ (l.drop i).take 11 = finderLike.reverse)

/-- A window scores once, as the two patterns differ. -/
theorem windowScore_eq (l : List Bool) : windowScore l = 40 * if isFinderLike l 0 then 1 else 0 := by
  have hne : finderLike ≠ finderLike.reverse := by decide
  unfold windowScore isFinderLike
  by_cases h : l.take 11 = finderLike
  · simp [h, hne]
  · by_cases h' : l.take 11 = finderLike.reverse <;> simp [h, h', hne.symm]

/-- Fewer than 11 cells are no window. -/
theorem isFinderLike_of_short {l : List Bool} (h : l.length < 11) : isFinderLike l 0 = false := by
  refine decide_eq_false fun hw => ?_
  have hlen : (l.take 11).length = 11 := by rcases hw with hw | hw <;> exact congrArg List.length hw
  rw [List.length_take] at hlen
  omega

/-- Rule 3 on one line counts its windows (R111). -/
theorem pen3Line_eq (l : List Bool) :
    pen3Line l = 40 * ((List.range (l.length - 10)).filter (isFinderLike l)).length := by
  induction l with
  | nil => rfl
  | cons a l ih =>
    rw [pen3Line, windowScore_eq, ih, List.length_cons]
    by_cases hlen : l.length < 10
    · have hshort : isFinderLike (a :: l) 0 = false := isFinderLike_of_short (Nat.succ_lt_succ hlen)
      simp [hshort, show l.length - 10 = 0 by omega, show l.length + 1 - 10 = 0 by omega]
    · rw [show l.length + 1 - 10 = l.length - 10 + 1 by omega, length_filter_range_succ, Nat.mul_add]
      rfl

theorem pen3Line_le (l : List Bool) : pen3Line l ≤ 40 * (l.length - 10) := by
  rw [pen3Line_eq]
  refine Nat.mul_le_mul_left _ ((List.length_filter_le _ _).trans ?_)
  rw [List.length_range]

/-! ### Rule 4 -/

/-- The dark cells counted by their positions (R112). -/
theorem darkCount_eq {n : Nat} {x : List (List Bool)} (hx : IsSquareArray n x) :
    darkCount x = ((positions n).filter fun p => colourAt x p.1 p.2).length := by
  conv_lhs => rw [← rows_eq hx]
  rw [darkCount, List.map_map, length_filter_positions]
  congr 1
  refine List.map_congr_left fun r _ => ?_
  rw [Function.comp_apply, List.count, List.countP_map, List.countP_eq_length_filter]
  simp [Function.comp_def]

/-- The deviation of R112 in unsigned arithmetic. -/
theorem balance_eq (n d : Nat) : balance n d =
    10 * ((if 10 * n ^ 2 ≤ 20 * d then 20 * d - 10 * n ^ 2 else 10 * n ^ 2 - 20 * d) / n ^ 2) := by
  rw [balance]
  congr 2
  have hsq : (n : Int) ^ 2 = ((n ^ 2 : Nat) : Int) := by push_cast; rfl
  rw [hsq]
  split <;> omega

theorem balance_le {n d : Nat} (h : d ≤ n ^ 2) : balance n d ≤ 100 := by
  have hdev : (if 10 * n ^ 2 ≤ 20 * d then 20 * d - 10 * n ^ 2 else 10 * n ^ 2 - 20 * d) ≤ n ^ 2 * 10 := by
    split <;> omega
  rw [balance_eq]
  have := Nat.div_le_of_le_mul hdev
  omega

/-! ### Bounds -/

section
variable {n : Nat} {x : List (List Bool)} (hx : IsSquareArray n x)
include hx

theorem pen1_le : pen1 n x ≤ 2 * n * (n - 2) := by
  rw [pen1, linesOf_eq_allLines hx]
  exact sum_allLines_le fun l hl => hl ▸ pen1Line_le l

theorem pen3_le : pen3 n x ≤ 80 * n * (n - 10) := by
  rw [pen3, linesOf_eq_allLines hx]
  refine (sum_allLines_le fun l hl => hl ▸ pen3Line_le l).trans_eq ?_
  ring

theorem pen4_le : pen4 n x ≤ 100 := by
  refine balance_le ?_
  rw [darkCount_eq hx, ← positions_length]
  exact List.length_filter_le _ _

/-- For every symbol the four penalties together are below 2^22 (R113). -/
theorem pen_total_lt (hn : n ≤ 177) : pen1 n x + pen2 x + pen3 n x + pen4 n x < 2 ^ 22 := by
  have h1 : 2 * n * (n - 2) ≤ 2 * 177 * 175 := by gcongr; omega
  have h2 : 3 * (n - 1) ^ 2 ≤ 3 * 176 ^ 2 := by gcongr; omega
  have h3 : 80 * n * (n - 10) ≤ 80 * 177 * 167 := by gcongr; omega
  have := pen1_le hx
  have := pen2_le hx
  have := pen3_le hx
  have := pen4_le hx
  omega

/-- The registers hold the four penalties and their total (R113). -/
theorem penaltiesOf_toNat (hn : n ≤ 177) :
    (penaltiesOf n x).p1.toNat = pen1 n x ∧ (penaltiesOf n x).p2.toNat = pen2 x ∧
    (penaltiesOf n x).p3.toNat = pen3 n x ∧ (penaltiesOf n x).p4.toNat = pen4 n x ∧
    (penaltiesOf n x).total.toNat = pen1 n x + pen2 x + pen3 n x + pen4 n x := by
  have htotal := pen_total_lt hx hn
  simp only [Penalties.total, penaltiesOf, BitVec.toNat_add, BitVec.toNat_ofNat]
  omega

end

end Sys2Proof.Machine
end

section
/-! PROOFS. The eight masks (43_mask_optimizer.md R105 to R108): masking twice, the colours scored for each mask, and a square
of data modules in every version on which the masks differ. -/

namespace Sys2Proof.Machine

open Sys2Proof.Claims

/-! ### Masking -/

/-- The eight conditions of R105 by divisibility. -/
theorem maskCond_iff (r c : Nat) :
    (maskCond 0 r c = true ↔ 2 ∣ r + c) ∧ (maskCond 1 r c = true ↔ 2 ∣ r) ∧ (maskCond 2 r c = true ↔ 3 ∣ c) ∧
    (maskCond 3 r c = true ↔ 3 ∣ r + c) ∧ (maskCond 4 r c = true ↔ 2 ∣ r / 2 + c / 3) ∧
    (maskCond 5 r c = true ↔ 6 ∣ r * c) ∧ (maskCond 6 r c = true ↔ r * c % 6 ≤ 2) ∧
    (maskCond 7 r c = true ↔ 2 ∣ r + c + r * c % 3) := by
  simp only [maskCond, decide_eq_true_eq]
  generalize r * c = m
  omega

/-- Masking a cell twice restores it (R107). -/
theorem maskCell_maskCell (k r c : Nat) (x : Cell) : maskCell k r c (maskCell k r c x) = x := by
  simp [maskCell]

theorem maskCell_of_func {x : Cell} (h : x.func = true) (k r c : Nat) : maskCell k r c x = x := by
  have hkeep : (!x.func && maskCond k r c) = false := by simp [h]
  rw [maskCell, hkeep, Bool.xor_false]

/-- Masking a matrix twice restores it (R107). -/
theorem maskGrid_maskGrid (k : Nat) (g : Grid) : maskGrid k (maskGrid k g) = g := by
  refine List.ext_getElem (by simp [maskGrid]) fun r hr hr' => ?_
  refine List.ext_getElem (by simp [maskGrid]) fun c hc hc' => ?_
  simp only [maskGrid, List.getElem_mapIdx, maskCell_maskCell]

/-- Where two conditions disagree on a data module the two copies differ (R107). -/
theorem maskGrid_ne {n k k' r c : Nat} {g : Grid} (hg : g.Square n) (hr : r < n) (hc : c < n)
    (hdata : (g.get r c).func = false) (hne : maskCond k r c ≠ maskCond k' r c) : maskGrid k g ≠ maskGrid k' g := by
  intro heq
  have hcell : maskCell k r c (g.get r c) = maskCell k' r c (g.get r c) := by
    rw [← get_maskGrid hg k hr hc, ← get_maskGrid hg k' hr hc, heq]
  have hdark := congrArg Cell.dark hcell
  simp only [maskCell, hdata, Bool.not_false, Bool.true_and, Bool.xor_right_inj] at hdark
  exact hne hdark

/-! ### Data modules of every version -/

/-- The second alignment coordinate is at least 18 (R94). -/
theorem alignOf_first : ∀ v ≤ 40, ∀ p ∈ alignOf v, p = 6 ∨ 18 ≤ p := by decide +kernel

/-- No pattern reaches the square of rows and columns 9 to 12 (R92 to R97). -/
theorem drawnCell_data_of_nine_to_twelve {v r c : Nat} (h1 : 1 ≤ v) (hv : v ≤ 40) (hr : 9 ≤ r ∧ r ≤ 12)
    (hc : 9 ≤ c ∧ c ≤ 12) : (drawnCell v r c).func = false := by
  have hdark : ¬ (r = 4 * v + 9 ∧ c = 8) := by omega
  have hver : isVersionCell v r c = false := decide_eq_false (by omega)
  have hfmt : isFormatCell v r c = false := decide_eq_false (by omega)
  have halign : alignNear v r c = [] := by
    refine List.flatMap_eq_nil_iff.mpr fun p hp => List.filterMap_eq_nil_iff.mpr fun q hq => if_neg fun hnear => ?_
    have hrow := alignOf_first v hv p hp
    have hring : ring r c p q ≤ 2 := hnear.1
    simp only [ring, gap] at hring
    omega
  have hfinder : finderNear v r c = [] := by
    refine List.filter_eq_nil_iff.mpr fun p hp hnear => ?_
    have hring := of_decide_eq_true hnear
    simp only [ring, gap] at hring
    simp only [List.mem_cons, List.not_mem_nil, or_false] at hp
    rcases hp with rfl | rfl | rfl <;> omega
  simp [drawnCell, hdark, hver, hfmt, halign, hfinder, show r ≠ 6 by omega, show c ≠ 6 by omega]

/-- Any two masks differ in the square of rows and columns 9 to 12. -/
theorem maskCond_differ : ∀ k < 8, ∀ k' < 8, k ≠ k' →
    ∃ r ∈ [9, 10, 11, 12], ∃ c ∈ [9, 10, 11, 12], maskCond k r c ≠ maskCond k' r c := by
  decide +kernel

/-- In every version any two masks disagree on a data module (R107). -/
theorem exists_mask_disagreement {v k k' : Nat} (h1 : 1 ≤ v) (hv : v ≤ 40) (hk : k < 8) (hk' : k' < 8) (hne : k ≠ k') :
    ∃ r c, r < sideOf v ∧ c < sideOf v ∧ ((funcGrid v).get r c).func = false ∧ maskCond k r c ≠ maskCond k' r c := by
  obtain ⟨r, hr, c, hc, hdiff⟩ := maskCond_differ k hk k' hk' hne
  have hr : 9 ≤ r ∧ r ≤ 12 := by simp at hr; omega
  have hc : 9 ≤ c ∧ c ≤ 12 := by simp at hc; omega
  have hn : 21 ≤ sideOf v := by simp only [sideOf]; omega
  have hrn : r < sideOf v := by omega
  have hcn : c < sideOf v := by omega
  refine ⟨r, c, hrn, hcn, ?_, hdiff⟩
  rw [get_funcGrid_eq_drawnCell h1 hv hrn hcn]
  exact drawnCell_data_of_nine_to_twelve h1 hv hr hc

/-! ### The colours scored -/

theorem isSquareArray_colours {n : Nat} {g : Grid} (hg : g.Square n) : IsSquareArray n (colours g) := by
  refine ⟨by rw [colours, List.length_map, hg.1], fun row hrow => ?_⟩
  obtain ⟨cells, hcells, rfl⟩ := List.mem_map.mp hrow
  rw [List.length_map, hg.2 cells hcells]

theorem colourAt_colours (g : Grid) (r c : Nat) : colourAt (colours g) r c = (g.get r c).dark := by
  have hrow : (colours g).getD r [] = (g.getD r []).map Cell.dark := List.getD_map g [] (List.map Cell.dark)
  rw [colourAt, hrow, Grid.get]
  exact List.getD_map (g.getD r []) Cell.unset Cell.dark

/-- The colours of a square matrix by position. -/
theorem colours_eq {n : Nat} {g : Grid} (hg : g.Square n) :
    colours g = (List.range n).map fun r => (List.range n).map fun c => (g.get r c).dark := by
  simp only [← colourAt_colours, rows_eq (isSquareArray_colours hg)]

/-- The array scored for mask k is X_k of R108. -/
theorem colours_maskGrid (s : State) (k : Nat) : colours (maskGrid k (s.loadGrid s.side)) = maskedColours s k := by
  have hg := s.square_loadGrid s.side
  rw [colours_eq (square_maskGrid hg k), maskedColours]
  refine List.map_congr_left fun r hr => List.map_congr_left fun c hc => ?_
  have hr := List.mem_range.mp hr
  have hc := List.mem_range.mp hc
  rw [get_maskGrid hg k hr hc, State.get_loadGrid s hr hc, maskCell]

/-- PEN[k] holds the penalties of X_k (R119). -/
theorem scoreAll_get (s : State) (k : Fin 8) :
    (scoreAll s.side (s.loadGrid s.side))[k] = penaltiesOf s.side (maskedColours s k) := by
  have hget (n : Nat) (g : Grid) : (scoreAll n g)[k] = scoreMask n g k := by fin_cases k <;> rfl
  rw [hget, scoreMask, colours_maskGrid]

end Sys2Proof.Machine
end

section
/-! PROOFS. The information words and FINALIZE (43_mask_optimizer.md R116 to R121): the distances of the words, and what writing
their bits leaves in each cell. -/

namespace Sys2Proof.Machine

open Sys2Proof.Claims

/-! ### The words -/

/-- The positions in which two format words differ. -/
def formatDiffers (a b : BitVec 15) : List Nat := (List.range 15).filter fun i => (a ^^^ b).getLsbD i

theorem fmtWord_ne_zero : ∀ e : Fin 4, ∀ k : Fin 8, fmtWord (BitVec.ofNat 2 e.val) k.val ≠ 0 := by decide +kernel

/-- Any two format words differ in at least 7 bits (R118). -/
theorem fmtWord_distance : ∀ e e' : Fin 4, ∀ k k' : Fin 8, (e, k) ≠ (e', k') →
    7 ≤ (formatDiffers (fmtWord (BitVec.ofNat 2 e.val) k.val) (fmtWord (BitVec.ofNat 2 e'.val) k'.val)).length := by
  decide +kernel

/-- The top six bits of a version word are V (R118). -/
theorem verWord_top : ∀ v ≤ 40, 7 ≤ v → (verWord v).toNat / 2 ^ 12 = v := by decide +kernel

theorem verWord_injective {v v' : Nat} (h7 : 7 ≤ v) (hv : v ≤ 40) (h7' : 7 ≤ v') (hv' : v' ≤ 40)
    (h : verWord v = verWord v') : v = v' := by
  rw [← verWord_top v hv h7, h, verWord_top v' hv' h7']

/-! ### Writing the bits of a word -/

section
variable {n w : Nat} (word : BitVec w)

theorem writeInfo_cons (p : Nat × Nat × Nat) (cells : List (Nat × Nat × Nat)) (g : Grid) :
    writeInfo word (p :: cells) g =
      writeInfo word cells (g.update p.2.1 p.2.2 fun x => { x with dark := word.getLsbD p.1 }) := rfl

/-- Only the listed cells are written. -/
theorem get_writeInfo_of_not_mem {g : Grid} (hg : g.Square n) {cells : List (Nat × Nat × Nat)}
    (hcells : ∀ p ∈ cells, p.2.1 < n ∧ p.2.2 < n) {r c : Nat} (h : (r, c) ∉ cells.map Prod.snd) :
    (writeInfo word cells g).get r c = g.get r c := by
  induction cells generalizing g with
  | nil => rfl
  | cons p cells ih =>
    obtain ⟨hp, hcells⟩ := List.forall_mem_cons.mp hcells
    obtain ⟨hne, h⟩ := not_or.mp (List.mem_cons.not.mp h)
    rw [writeInfo_cons, ih (Grid.square_update hg _ _ _) hcells h, Grid.get_update hg hp.1 hp.2]
    exact if_neg fun heq => hne (Prod.ext heq.1 heq.2)

/-- With no cell listed twice each listed cell gets its bit (R120). -/
theorem dark_writeInfo {g : Grid} (hg : g.Square n) {cells : List (Nat × Nat × Nat)}
    (hcells : ∀ p ∈ cells, p.2.1 < n ∧ p.2.2 < n) (hnodup : (cells.map Prod.snd).Nodup) {i r c : Nat}
    (h : (i, r, c) ∈ cells) : ((writeInfo word cells g).get r c).dark = word.getLsbD i := by
  induction cells generalizing g with
  | nil => cases h
  | cons p cells ih =>
    obtain ⟨hp, hrest⟩ := List.forall_mem_cons.mp hcells
    obtain ⟨hnew, hnodup'⟩ := List.nodup_cons.mp hnodup
    have hg' := Grid.square_update hg p.2.1 p.2.2 fun x => { x with dark := word.getLsbD p.1 }
    rw [writeInfo_cons]
    rcases List.mem_cons.mp h with rfl | h
    · rw [get_writeInfo_of_not_mem word hg' hrest hnew, Grid.get_update hg hp.1 hp.2, if_pos ⟨rfl, rfl⟩]
    · exact ih hg' hrest hnodup' h

end

/-! ### The cells of each bit -/

/-- The two cells of format bit i stand in the model's list (R96). -/
theorem mem_formatCells_of_spot {n i : Nat} (hi : i < 15) {p : Nat × Nat} (hp : p ∈ formatSpots n i) :
    (i, p) ∈ formatCells n := by
  obtain rfl | rfl := List.mem_pair.mp hp
  · refine List.mem_append_left _ ?_
    interval_cases i <;> decide
  · refine List.mem_append_right _ ?_
    split
    next h7 => exact List.mem_append_left _ (List.mem_map.mpr ⟨i, List.mem_range.mpr (by omega), rfl⟩)
    next h7 =>
      refine List.mem_append_right _ (List.mem_map.mpr ⟨i - 8, List.mem_range.mpr (by omega), ?_⟩)
      rw [show 8 + (i - 8) = i by omega]

/-- The two cells of version bit i stand in the model's list (R97). -/
theorem mem_versionCells_of_spot {v i : Nat} (h7 : 7 ≤ v) (hi : i < 18) {p : Nat × Nat}
    (hp : p ∈ versionSpots (sideOf v) i) : (i, p) ∈ versionCells v := by
  have hi := List.mem_range.mpr hi
  rw [versionCells, if_pos h7]
  obtain rfl | rfl := List.mem_pair.mp hp
  · exact List.mem_append_left _ (List.mem_map.mpr ⟨i, hi, rfl⟩)
  · exact List.mem_append_right _ (List.mem_map.mpr ⟨i, hi, rfl⟩)

theorem formatCells_inside {v : Nat} (h1 : 1 ≤ v) :
    ∀ p ∈ formatCells (sideOf v), p.2.1 < sideOf v ∧ p.2.2 < sideOf v :=
  fun _ => formatCells_lt (by simp only [sideOf]; omega)

theorem formatSpot_lt {v i : Nat} (h1 : 1 ≤ v) (hi : i < 15) {p : Nat × Nat} (hp : p ∈ formatSpots (sideOf v) i) :
    p.1 < sideOf v ∧ p.2 < sideOf v := formatCells_inside h1 _ (mem_formatCells_of_spot hi hp)

theorem versionSpot_lt {v i : Nat} (h7 : 7 ≤ v) (hi : i < 18) {p : Nat × Nat} (hp : p ∈ versionSpots (sideOf v) i) :
    p.1 < sideOf v ∧ p.2 < sideOf v := versionCells_lt (mem_versionCells_of_spot h7 hi hp)

/-- No cell is in both information areas, and none of them is listed twice. -/
theorem infoCells_nodup {v : Nat} (h1 : 1 ≤ v) (hv : v ≤ 40) :
    ((formatCells (sideOf v)).map Prod.snd).Nodup ∧ ((versionCells v).map Prod.snd).Nodup ∧
      ∀ p ∈ (formatCells (sideOf v)).map Prod.snd, p ∉ (versionCells v).map Prod.snd := by
  have h := infoSpots_nodup v hv h1
  rw [infoSpots, List.map_append, List.nodup_append] at h
  obtain ⟨hfmt, hver, hdisjoint⟩ := h
  exact ⟨hfmt, hver, fun p hp hp' => hdisjoint p hp p hp' rfl⟩

/-! ### The finished symbol -/

section
variable {v : Nat} (h1 : 1 ≤ v) {g : Grid} (hg : g.Square (sideOf v)) (ecl : BitVec 2) (k : Nat)
include h1 hg

/-- A cell of neither information area is masked alone (R120). -/
theorem finishGrid_data {r c : Nat} (hr : r < sideOf v) (hc : c < sideOf v) (hfmt : isFormatCell v r c = false)
    (hver : isVersionCell v r c = false) : (finishGrid v ecl k g).get r c = maskCell k r c (g.get r c) := by
  have hmask := square_maskGrid hg k
  have hfmt' : (r, c) ∉ (formatCells (sideOf v)).map Prod.snd := by simp [mem_formatCells h1 hr hc, hfmt]
  have hver' : (r, c) ∉ (versionCells v).map Prod.snd := by simp [mem_versionCells, hver]
  rw [finishGrid, get_writeInfo_of_not_mem _ (square_writeInfo hmask _ _) (fun _ => versionCells_lt) hver',
    get_writeInfo_of_not_mem _ hmask (formatCells_inside h1) hfmt', get_maskGrid hg k hr hc]

variable (hv : v ≤ 40)
include hv

/-- Both cells of a format bit hold it (R120). -/
theorem finishGrid_format {i : Nat} (hi : i < 15) {p : Nat × Nat} (hp : p ∈ formatSpots (sideOf v) i) :
    ((finishGrid v ecl k g).get p.1 p.2).dark = (fmtWord ecl k).getLsbD i := by
  have hmask := square_maskGrid hg k
  obtain ⟨hnodup, -, hdisjoint⟩ := infoCells_nodup h1 hv
  have hmem := mem_formatCells_of_spot hi hp
  rw [finishGrid, get_writeInfo_of_not_mem _ (square_writeInfo hmask _ _) (fun _ => versionCells_lt)
    (hdisjoint p (List.mem_map_of_mem hmem))]
  exact dark_writeInfo _ hmask (formatCells_inside h1) hnodup hmem

/-- Both cells of a version bit hold it (R120). -/
theorem finishGrid_version (h7 : 7 ≤ v) {i : Nat} (hi : i < 18) {p : Nat × Nat} (hp : p ∈ versionSpots (sideOf v) i) :
    ((finishGrid v ecl k g).get p.1 p.2).dark = (verWord v).getLsbD i := by
  obtain ⟨-, hnodup, -⟩ := infoCells_nodup h1 hv
  exact dark_writeInfo _ (square_writeInfo (square_maskGrid hg k) _ _) (fun _ => versionCells_lt) hnodup
    (mem_versionCells_of_spot h7 hi hp)

end

end Sys2Proof.Machine
end

section
/-! PROOFS. The statements of 43_mask_optimizer.md. -/

namespace Sys2Proof.Proofs

open Sys2Proof.Machine Sys2Proof.Claims

/-- Settles O60: by `selectMask_isBest`. -/
theorem selectedMaskIsTheLeastMinimum : Obligations.SelectedMaskIsTheLeastMinimum := selectMask_isBest

/-- Settles O50: the words evaluated; two versions with one word have the same top six bits. -/
theorem informationWordsAreFarApart : Obligations.InformationWordsAreFarApart := by
  refine ⟨by decide, by decide, by decide, by decide, by decide, by decide, fun e e' k k' => ?_,
    fun v v' h7 hv h7' hv' => ?_⟩
  · exact ⟨fmtWord_ne_zero e k, fmtWord_distance e e' k k'⟩
  · exact ⟨verWord_top v hv h7, verWord_injective h7 hv h7' hv'⟩

/-- Settles O54: masking inverts the same modules both times, and rows and columns 9 to 12 are data modules in every
version. -/
theorem maskingTwiceRestores : Obligations.MaskingTwiceRestores := by
  refine ⟨maskCond_iff, maskGrid_maskGrid, fun k r c x => ⟨fun h => maskCell_of_func h k r c, rfl⟩, by decide,
    fun n k k' r c f hr hc hdata hne => ?_, fun v k k' h1 hv hk hk' hne => exists_mask_disagreement h1 hv hk hk' hne⟩
  refine maskGrid_ne (Grid.square_tabulate n f) hr hc ?_ hne
  rw [Grid.get_tabulate f hr hc, hdata]

/-- Settles O55: the lines scored are the rows and columns, and the runs of a line are those of its split. -/
theorem ruleOneScoresMaximalRuns : Obligations.RuleOneScoresMaximalRuns := by
  intro n x hx
  rw [pen1, linesOf_eq_allLines hx]
  exact congrArg List.sum (List.map_congr_left fun l _ => pen1Line_eq l)

/-- Settles O56: the blocks of each two adjacent rows, counted by position. -/
theorem ruleTwoCountsBlocks : Obligations.RuleTwoCountsBlocks := fun _ _ hx => pen2_eq hx

/-- Settles O57: each line scores 40 for each of its windows. -/
theorem ruleThreeCountsWindows : Obligations.RuleThreeCountsWindows := by
  intro n x hx _
  rw [pen3, linesOf_eq_allLines hx, ← List.sum_map_mul_left]
  refine congrArg List.sum (List.map_congr_left fun l hl => ?_)
  rw [pen3Line_eq, length_of_mem_allLines hl]
  rfl

/-- Settles O58: the dark cells counted by position, and the absolute value in unsigned arithmetic. -/
theorem ruleFourMeasuresBalance : Obligations.RuleFourMeasuresBalance := by
  rintro n d x hx rfl
  rw [pen4, darkCount_eq hx, balance_eq]

/-- Settles O59: each rule's bound for a side of at most 177. -/
theorem penaltiesFitTheirRegisters : Obligations.PenaltiesFitTheirRegisters := by
  intro v x _ hv hx
  exact ⟨pen1_le hx, pen2_le hx, pen3_le hx, pen4_le hx, pen_total_lt hx (by omega), penaltiesOf_toNat hx (by omega)⟩

/-- Settles O15: SCORE's body always ends, and the arrays it scores are X_0 to X_7. -/
theorem scoreCompletes : Obligations.ScoreCompletes := by
  intro s hb hop _
  exact ⟨_, exec_finishes (by decide) hb hop rfl, rfl, scoreAll_get s, totalsOf_get _⟩

/-- Settles O16: FINALIZE stores `finishedGrid`, each of whose cells is masked or holds its bit of an information word. -/
theorem finalizeCompletes : Obligations.FinalizeCompletes := by
  intro s hb hop hv
  have h1 : 1 ≤ s.version := hv.1
  have hload := s.square_loadGrid s.side
  have hgrid := square_finishedGrid s
  have hbody : bodyOf .finalize s = .done ((s.storeGrid (finishedGrid s)).setStatus
      { s.status with mask := BitVec.ofNat 3 (selectMask s.pentot).val }) := rfl
  have hcell {u : Status} {r c : Nat} (hr : r < s.side) (hc : c < s.side) :
      (finish .finalize ((s.storeGrid (finishedGrid s)).setStatus u)).readCell r c = (finishedGrid s).get r c :=
    State.readCell_storeSymbol ((valid_iff s).mpr hv) hgrid hr hc
  refine ⟨_, selectMask s.pentot, exec_finishes (by decide) hb hop hbody, selectMask_isBest _, rfl, fun r c hr hc => ?_,
    fun i hi p hp => ?_, fun h7 i hi p hp => ?_, fun r c hr hc hfmt hver => ?_, (SymbolOnly.storeGrid hv hgrid).2⟩
  · obtain ⟨d, hplanes⟩ := finishedGrid_planes hr hc
    rw [hcell hr hc, hplanes]
    exact ⟨rfl, rfl, rfl⟩
  · obtain ⟨hr, hc⟩ := formatSpot_lt h1 hi hp
    rw [hcell hr hc]
    exact finishGrid_format h1 hload _ _ hv.2 hi hp
  · obtain ⟨hr, hc⟩ := versionSpot_lt h7 hi hp
    rw [hcell hr hc]
    exact finishGrid_version h1 hload _ _ hv.2 h7 hi hp
  · rw [hcell hr hc, finishedGrid, finishGrid_data h1 hload _ _ hr hc hfmt hver, State.get_loadGrid s hr hc, maskCell]

end Sys2Proof.Proofs
end

section
/-! PROOFS. Command errors (60_exceptions.md R123 to R127): what a word raises when it is taken, that an accepted command
raises no INTERNAL, and what each operation does to ERR and ERRCODE. -/

namespace Sys2Proof.Machine

open Sys2Proof.Claims

/-! ### Errors of a taken word -/

theorem opcode_of_encode (i : Instr) : (encode i).extractLsb' 0 8 = opcode i :=
  congrArg RawCommand.opc (splitWord_joinWord ⟨0, opcode i⟩)

/-- A word that is no command's raises ILLEGAL_CMD when it is taken (R65, R69). -/
theorem submit_illegal {s : State} {w : Word} {e : DecodeError} (hb : s.status.busy = false) (he : s.status.err = false)
    (hd : decode w = .error e) :
    submit w s = .next (respondOk (raiseTaken .illegalCmd (splitWord w).opc (clearDone s))) := by
  simp [submit, hb, he, hd, issueIllegal_idle]

/-- The word of SOFT_RESET raises no error: it has no condition (R64, R69). -/
theorem ne_softReset_of_raises {s : State} {i : Instr} {code : ErrCode} (h : Raises s i code) : i ≠ .softReset := by
  rintro rfl
  cases h with
  | cfgInvalid hn _ => exact hn.2 rfl
  | sequence _ hp => exact hp (by cases s.status.phase <;> decide)

/-- Taking a word raises the error of its first check that fails (R69, R126). -/
theorem take_raises {s : State} {i : Instr} {code : ErrCode} (h : Raises s i code) :
    take i s = raiseTaken code (opcode i) (clearDone s) := by
  cases h with
  | cfgInvalid hn hv =>
    rcases take_cases i s with ⟨-, -, hx⟩ | ⟨hcfg, -⟩ | ⟨hcfg, -⟩
    · exact hx
    all_goals exact absurd ((valid_iff s).mp (hcfg ((needsCfg_iff i).mpr hn))) hv
  | sequence hv hp =>
    rcases take_cases i s with ⟨hn, hcfg, -⟩ | ⟨-, -, hx⟩ | ⟨-, hallow, -⟩
    · exact absurd ((valid_iff s).mpr (hv ((needsCfg_iff i).mp hn))) (by simp [hcfg])
    · exact hx
    · exact absurd ((phaseAllows_iff _ _).mp hallow) hp

theorem raises_setScript {s : State} {i : Instr} {code : ErrCode} (h : Raises s i code) (l : List Event) :
    Raises (s.setScript l) i code := by
  cases h with
  | cfgInvalid hn hv => exact .cfgInvalid hn hv
  | sequence hv hp => exact .sequence hv hp

/-- A taken word leaves no INTERNAL: its errors are CFG_INVALID and SEQUENCE, and an accepted one changes no ERRCODE. -/
theorem take_errcode_ne_internal {s : State} (i : Instr) (h : s.status.errcode ≠ .internal) :
    (take i s).status.errcode ≠ .internal := by
  rcases take_cases i s with ⟨-, -, hx⟩ | ⟨-, -, hx⟩ | ⟨-, -, hx⟩ <;> rw [hx]
  · exact (by decide : ErrCode.cfgInvalid ≠ .internal)
  · exact (by decide : ErrCode.sequence ≠ .internal)
  · exact h

/-! ### STATUS writes and SOFT_RESET -/

theorem writeStatus_err (w : Word) (s : State) : (writeStatus w s).status.err = (s.status.err && !w.getLsbD 2) := by
  unfold writeStatus
  cases w.getLsbD 1 <;> cases w.getLsbD 2 <;> simp [clearErr, clearDone]

theorem writeStatus_errcode (w : Word) (s : State) :
    (writeStatus w s).status.errcode = if w.getLsbD 2 then .none else s.status.errcode := by
  unfold writeStatus
  cases w.getLsbD 1 <;> cases w.getLsbD 2 <;> rfl

theorem softReset_err (s : State) : (softReset s).status.err = false :=
  congrArg Status.err (softReset_registers s).1

theorem softReset_errcode (s : State) : (softReset s).status.errcode = .none :=
  congrArg Status.errcode (softReset_registers s).1

/-! ### INTERNAL -/

/-- INTERNAL of a command other than RUN (R124). -/
theorem raiseInternal_of_not_run {s : State} (h : s.curOp ≠ opcode .run) (opc : Byte) : raiseInternal opc s =
    { s with
      status := { s.status with err := true, errcode := .internal, phase := .idle, busy := false }
      errinfo := ⟨opc, s.status.phase, false⟩ } := by
  rw [raiseInternal, decide_eq_false h]
  rfl

/-- The checks in the body of a command whose acceptance checks hold are met, PLACE's because its symbol is as BUILD_FUNC
drew it (R125). -/
theorem bodyOf_done_of_accepted {i : Instr} {s : State} (hcfg : needsCfg i = true → s.cfg.valid = true)
    (hphase : phaseAllows i s.status.phase = true) (hfresh : s.FreshOk) : ∃ t, bodyOf i s = .done t := by
  have hv (hn : needsCfg i = true) : Valid s := (valid_iff s).mp (hcfg hn)
  cases i with
  | nop | softReset | buildFunc | score | finalize => exact ⟨_, rfl⟩
  | rsEncode => exact ⟨_, bodyRsEncode_done (hv rfl)⟩
  | interleave => exact ⟨_, bodyInterleave_done (hv rfl)⟩
  | place =>
    have hp : s.status.phase = .funcDone := by simpa [phaseAllows] using hphase
    exact ⟨_, bodyPlace_done (hv rfl) (hfresh hp)⟩
  | run =>
    obtain ⟨t, ht, -⟩ := bodyRun_done (hv rfl)
    exact ⟨t, ht⟩

/-- From a state that meets the invariant a completion step changes no ERRCODE (R71, R125). -/
theorem complete_errcode {i : Instr} {s : State} (h : s.Inv) (hb : s.status.busy = true) (hr : s.running = some i) :
    (complete i (bodyOf i) s).status.errcode = s.status.errcode := by
  obtain ⟨j, hj, hcfg, hphase⟩ := h.engine hb
  obtain rfl : i = j := Option.some.inj (hr.symm.trans hj)
  obtain ⟨t, ht⟩ := bodyOf_done_of_accepted hcfg hphase h.fresh
  have hout : OutputsOnly s t := by
    have := bodyOf_outputs hcfg
    rwa [ht] at this
  have hstatus : t.status.errcode = s.status.errcode := by rw [hout.status]
  rw [complete, ht]
  exact hstatus

/-! ### ERR through a completion step -/

theorem BodyResult.andThen_all {P : State → Prop} {r : BodyResult} {body : State → BodyResult} (hr : r.All P)
    (hbody : ∀ t, P t → (body t).All P) : (r.andThen body).All P := by
  cases r with
  | done t => exact hbody t hr
  | internal opc t => exact hr

section
variable {e : Bool} {s : State} (h : s.status.err = e)
include h

theorem bodyRsEncode_err : (bodyRsEncode s).All fun t => t.status.err = e := by
  rcases bodyRsEncode_cases s with ⟨-, hx⟩ | ⟨-, hx⟩ <;> rw [hx] <;> exact h

theorem bodyInterleave_err : (bodyInterleave s).All fun t => t.status.err = e := by
  rcases bodyInterleave_cases s with ⟨-, hx⟩ | ⟨-, hx⟩ <;> rw [hx] <;> exact h

theorem bodyPlace_err : (bodyPlace s).All fun t => t.status.err = e := by
  rcases bodyPlace_cases s with ⟨-, -, hx⟩ | ⟨-, hx⟩ <;> rw [hx] <;> exact h

/-- No body writes ERR, whatever CFG is. -/
theorem bodyOf_err (i : Instr) : (bodyOf i s).All fun t => t.status.err = e := by
  cases i with
  | nop | softReset | buildFunc | score | finalize => exact h
  | rsEncode => exact bodyRsEncode_err h
  | interleave => exact bodyInterleave_err h
  | place => exact bodyPlace_err h
  | run =>
    have hcw := BodyResult.andThen_all (bodyRsEncode_err h) fun t ht => bodyInterleave_err ht
    have hfunc := BodyResult.andThen_all (body := bodyBuildFunc) hcw fun t ht => ht
    have hplace := BodyResult.andThen_all hfunc fun t ht => bodyPlace_err ht
    have hscore := BodyResult.andThen_all (body := bodyScore) hplace fun t ht => ht
    exact BodyResult.andThen_all (body := bodyFinalize) hscore fun t ht => ht

end

/-- A completion step clears no ERR (R71, R124). -/
theorem complete_err {i : Instr} {s : State} (h : s.status.err = true) :
    (complete i (bodyOf i) s).status.err = true := by
  have hbody := bodyOf_err h i
  rcases complete_cases i (bodyOf i) s with ⟨t, ht, hx⟩ | ⟨opc, t, ht, hx⟩ <;> rw [hx]
  · rw [ht] at hbody
    exact hbody
  · rfl

end Sys2Proof.Machine
end

section
/-! PROOFS. The answer of the port (60_exceptions.md R129): the region an access reaches by its bounds, the causes of
SLVERR in each region, and that an access is refused exactly for them. -/

namespace Sys2Proof.Machine

open Sys2Proof.Claims

/-! ### The region of an access -/

theorem accessSize_pos (h : HostAccess) : 0 < accessSize h := by
  cases h <;> exact Nat.succ_pos _

/-- An access reaches the region that holds all its bytes, aligned, a register only with 4 bytes (R47 to R49). -/
theorem target_eq_some_iff_bounds {a n : Nat} (hn : 0 < n) {r : Region} : target a n = some r ↔
    r.bounds.1 ≤ a ∧ a + n ≤ r.bounds.2 ∧ a % n = 0 ∧ (r.isRegister = true → n = 4) := by
  rw [target_eq_some, regionOf_eq_some, regionOf_eq_some]
  constructor
  · rintro ⟨⟨hlo, -⟩, ⟨-, hhi⟩, halign, hsize⟩
    exact ⟨hlo, by omega, halign, hsize⟩
  · rintro ⟨hlo, hhi, halign, hsize⟩
    exact ⟨⟨hlo, by omega⟩, ⟨by omega, by omega⟩, halign, hsize⟩

/-- The table of R46 is the table of `Region.bounds`. -/
theorem inOneRegion_iff (h : HostAccess) :
    InOneRegion h ↔ ∃ r : Region, r.bounds.1 ≤ accessAddr h ∧ accessAddr h + accessSize h ≤ r.bounds.2 := by
  constructor
  · rintro ⟨p, hp, hin⟩
    have htable : ∃ r : Region, r.bounds = p := by
      simp only [List.mem_cons, List.not_mem_nil, or_false] at hp
      rcases hp with rfl | rfl | rfl | rfl | rfl | rfl
      exacts [⟨.regs, rfl⟩, ⟨.pens, rfl⟩, ⟨.dbuf, rfl⟩, ⟨.ecbuf, rfl⟩, ⟨.cwbuf, rfl⟩, ⟨.matrix, rfl⟩]
    obtain ⟨r, rfl⟩ := htable
    exact ⟨r, hin⟩
  · rintro ⟨r, hin⟩
    exact ⟨r.bounds, by cases r <;> decide, hin⟩

/-- The registers are the regions below 0x001A0 (R46). -/
theorem isRegister_iff_of_bounds {r : Region} {a n : Nat} (hn : 0 < n) (hlo : r.bounds.1 ≤ a)
    (hhi : a + n ≤ r.bounds.2) : r.isRegister = true ↔ a < 0x001A0 := by
  cases r <;> simp only [Region.bounds] at hlo hhi <;> simp [Region.isRegister] <;> omega

/-- The first three causes of R129 are those for which an access reaches no region. -/
theorem target_eq_none_iff (h : HostAccess) : target (accessAddr h) (accessSize h) = none ↔
    ¬ InOneRegion h ∨ accessAddr h % accessSize h ≠ 0 ∨ (accessAddr h < 0x001A0 ∧ accessSize h ≠ 4) := by
  have hn := accessSize_pos h
  have hreach : (∃ r, target (accessAddr h) (accessSize h) = some r) ↔
      InOneRegion h ∧ accessAddr h % accessSize h = 0 ∧ (accessAddr h < 0x001A0 → accessSize h = 4) := by
    simp only [target_eq_some_iff_bounds hn, inOneRegion_iff]
    constructor
    · rintro ⟨r, hlo, hhi, halign, hsize⟩
      exact ⟨⟨r, hlo, hhi⟩, halign, fun ha => hsize ((isRegister_iff_of_bounds hn hlo hhi).mpr ha)⟩
    · rintro ⟨⟨r, hlo, hhi⟩, halign, hsize⟩
      exact ⟨r, hlo, hhi, halign, fun hr => hsize ((isRegister_iff_of_bounds hn hlo hhi).mp hr)⟩
  rw [Option.eq_none_iff_forall_ne_some, ← not_exists, hreach]
  tauto

theorem slverrCause_of_target_none {s : State} {h : HostAccess} (ht : target (accessAddr h) (accessSize h) = none) :
    SlverrCause s h := by
  rcases (target_eq_none_iff h).mp ht with hregion | halign | hsize
  exacts [.inl hregion, .inr (.inl halign), .inr (.inr (.inl hsize))]

section
variable {s : State} {h : HostAccess} {r : Region} (ht : target (accessAddr h) (accessSize h) = some r)
include ht

/-- The bounds of the region an access reaches. -/
theorem bounds_of_target : r.bounds.1 ≤ accessAddr h ∧ accessAddr h < r.bounds.2 := by
  obtain ⟨hfirst, -⟩ := target_eq_some.mp ht
  exact regionOf_eq_some.mp hfirst

theorem dbuf_iff_of_target : (0x01000 ≤ accessAddr h ∧ accessAddr h < 0x02000) ↔ r = .dbuf := by
  obtain ⟨hlo, hhi⟩ := bounds_of_target ht
  cases r <;> simp only [Region.bounds] at hlo hhi <;> simp <;> omega

/-- The regions other than the registers of section 2 and DBUF: the penalty registers, and all from ECBUF on (R46). -/
theorem otherRegion_iff_of_target :
    ((0x00100 ≤ accessAddr h ∧ accessAddr h < 0x001A0) ∨ 0x02000 ≤ accessAddr h) ↔ r ≠ .regs ∧ r ≠ .dbuf := by
  obtain ⟨hlo, hhi⟩ := bounds_of_target ht
  cases r <;> simp only [Region.bounds] at hlo hhi <;> simp <;> omega

/-- An access that reaches a region has the last four causes of R129 only. -/
theorem slverrCause_of_target : SlverrCause s h ↔
    (isWrite h = true ∧ (accessAddr h ∈ [0x00000, 0x00014, 0x00018, 0x0001C, 0x00020] ∨ (r ≠ .regs ∧ r ≠ .dbuf))) ∨
    ((s.status.busy = true ∨ s.status.err = true) ∧ ∃ w, h = .wr32 0x00008 w ∧ w ≠ 0x00000001) ∨
    (s.status.busy = true ∧ isWrite h = true ∧ (accessAddr h = 0x00004 ∨ r = .dbuf)) ∨
    (s.status.busy = true ∧ isWrite h = false ∧ r ≠ .regs ∧ r ≠ .dbuf) := by
  have hreach := mt (target_eq_none_iff h).mpr (by simp [ht])
  simp only [not_or] at hreach
  obtain ⟨hin, halign, hsize⟩ := hreach
  rw [SlverrCause, otherRegion_iff_of_target ht, dbuf_iff_of_target ht]
  simp only [hin, halign, hsize, false_or]

/-- A read that reaches a region is refused only while BUSY, in every region but the registers and DBUF (R142). -/
theorem slverrCause_read (hr : isWrite h = false) :
    SlverrCause s h ↔ s.status.busy = true ∧ r ≠ .regs ∧ r ≠ .dbuf := by
  have hcmd : ¬ ∃ w, h = .wr32 0x00008 w ∧ w ≠ 0x00000001 := by
    rintro ⟨w, rfl, -⟩
    cases hr
  simp only [slverrCause_of_target ht, hcmd, hr]
  simp

/-- A write to a region other than the registers of section 2 and DBUF is refused (R52). -/
theorem slverrCause_write_other (hw : isWrite h = true) (hregs : r ≠ .regs) (hdbuf : r ≠ .dbuf) : SlverrCause s h :=
  (slverrCause_of_target ht).mpr (.inl ⟨hw, .inr ⟨hregs, hdbuf⟩⟩)

end

/-- A write that reaches DBUF is refused only while BUSY (R142). -/
theorem slverrCause_dbuf {s : State} {h : HostAccess} (ht : target (accessAddr h) (accessSize h) = some .dbuf)
    (hw : isWrite h = true) : SlverrCause s h ↔ s.status.busy = true := by
  obtain ⟨hlo, -⟩ := bounds_of_target_dbuf ht
  have hcmd : ¬ ∃ w, h = .wr32 0x00008 w ∧ w ≠ 0x00000001 := by
    rintro ⟨w, rfl, -⟩
    exact absurd (show 0x01000 ≤ 0x00008 from hlo) (by decide)
  have hro : accessAddr h ∉ [0x00000, 0x00014, 0x00018, 0x0001C, 0x00020] := by
    simp only [List.mem_cons, List.not_mem_nil, or_false]
    omega
  simp only [slverrCause_of_target ht, hcmd, hro, hw]
  simp

/-- What is refused of the 4-byte writes to registers: the read-only ones, every word but that of SOFT_RESET to CMD while
BUSY or ERR, and CFG while BUSY (R52, R69, R142). -/
def RegisterRefuses (off : Nat) (w : Word) (s : State) : Prop :=
  off ∉ [0x004, 0x008, 0x00C, 0x010] ∨
  ((s.status.busy = true ∨ s.status.err = true) ∧ off = 0x008 ∧ w ≠ 0x00000001) ∨
  (s.status.busy = true ∧ off = 0x004)

theorem slverrCause_register {s : State} {a : BitVec 17} {w : Word} (ht : target a.toNat 4 = some .regs) :
    SlverrCause s (.wr32 a w) ↔ RegisterRefuses a.toNat w s := by
  obtain ⟨-, hlt, h4, -⟩ := (target_eq_some_iff_bounds (by decide)).mp ht
  simp only [Region.bounds] at hlt
  have hro : a.toNat ∈ [0x00000, 0x00014, 0x00018, 0x0001C, 0x00020] ↔ a.toNat ∉ [0x004, 0x008, 0x00C, 0x010] := by
    simp only [List.mem_cons, List.not_mem_nil, or_false]
    omega
  have hcmd : (∃ v, HostAccess.wr32 a w = .wr32 0x00008 v ∧ v ≠ 0x00000001) ↔ a.toNat = 0x008 ∧ w ≠ 0x00000001 := by
    simp only [HostAccess.wr32.injEq, and_assoc, exists_and_left, exists_eq_left', ← BitVec.toNat_inj (x := a)]
    rfl
  rw [slverrCause_of_target (h := .wr32 a w) ht, hcmd, RegisterRefuses, ← hro]
  simp [accessAddr, isWrite]

/-! ### The answer of an access -/

/-- A word written to CMD is answered OK unless it is refused (R69). -/
theorem submit_ok {w : Word} {s : State} (h : ¬ ((s.status.busy = true ∨ s.status.err = true) ∧ w ≠ 0x00000001)) :
    ∃ t, submit w s = .next t ∧ t.resp = some ⟨false, none⟩ := by
  rcases submit_cases w s with ⟨-, -, hx⟩ | ⟨hb, hw, -⟩ | ⟨i, hb, he, -, hx⟩ | ⟨e, hb, he, -, hx⟩
  · exact ⟨_, hx, rfl⟩
  · exact absurd ⟨hb, encode_softReset ▸ hw⟩ h
  · by_cases hi : i = .softReset
    · subst hi
      exact ⟨_, hx, rfl⟩
    · exact ⟨_, hx.trans (exec_idle hi hb he), rfl⟩
  · exact ⟨_, hx.trans (congrArg _ (issueIllegal_idle hb he _)), rfl⟩

theorem writeRegister_refused {off : Nat} {w : Word} {s : State} (h : RegisterRefuses off w s) :
    writeRegister off w s = .next (respondSlverr s) := by
  rcases h with hro | ⟨hb, rfl, hw⟩ | ⟨hb, rfl⟩
  · exact writeRegister_readOnly hro w s
  · exact submit_refused hb (encode_softReset ▸ hw)
  · simp [writeRegister, hb]

theorem writeRegister_ok {off : Nat} {w : Word} {s : State} (h : ¬ RegisterRefuses off w s) :
    ∃ t, writeRegister off w s = .next t ∧ t.resp = some ⟨false, none⟩ := by
  simp only [RegisterRefuses, not_or] at h
  obtain ⟨hrw, hcmd, hcfg⟩ := h
  simp only [not_not, List.mem_cons, List.not_mem_nil, or_false] at hrw
  rcases hrw with rfl | rfl | rfl | rfl
  · exact ⟨_, writeRegister_cfg (by simpa using hcfg) w, rfl⟩
  · exact submit_ok fun ⟨hb, hw⟩ => hcmd ⟨hb, rfl, hw⟩
  · exact ⟨_, writeRegister_status w s, rfl⟩
  · exact ⟨_, writeRegister_ien w s, rfl⟩

/-- A read has no data exactly for the causes of R129. -/
theorem hostReadData_eq_none_iff {h : HostAccess} (hr : isWrite h = false) (s : State) :
    hostReadData (accessAddr h) (accessSize h) s = none ↔ SlverrCause s h := by
  cases ht : target (accessAddr h) (accessSize h) with
  | none => simp [hostReadData, ht, slverrCause_of_target_none ht]
  | some r =>
    rw [slverrCause_read ht hr, hostReadData, ht]
    cases r <;> simp

/-- A write is refused for the causes of R129. -/
theorem hostAccess_write_refused {h : HostAccess} (hw : isWrite h = true) {s : State} (hc : SlverrCause s h) :
    hostAccess h s = .next (respondSlverr s) := by
  rw [hostAccess_write hw]
  rcases hostWrite_cases (accessAddr h) (accessSize h) (writeValue h) s with ⟨ht, hx⟩ | ⟨ht, hx⟩ | ⟨-, -, hx⟩ <;> rw [hx]
  · obtain ⟨a, w, rfl⟩ := exists_wr32 hw (size_of_target_regs ht)
    exact writeRegister_refused ((slverrCause_register ht).mp hc)
  · rw [writeDbuf, if_pos ((slverrCause_dbuf ht hw).mp hc)]

/-- A write is answered OK without a cause of R129. -/
theorem hostAccess_write_ok {h : HostAccess} (hw : isWrite h = true) {s : State} (hc : ¬ SlverrCause s h) :
    ∃ t, hostAccess h s = .next t ∧ t.resp = some ⟨false, none⟩ := by
  rw [hostAccess_write hw]
  rcases hostWrite_cases (accessAddr h) (accessSize h) (writeValue h) s with ⟨ht, hx⟩ | ⟨ht, hx⟩ | ⟨hregs, hdbuf, -⟩
  · obtain ⟨a, w, rfl⟩ := exists_wr32 hw (size_of_target_regs ht)
    rw [hx]
    exact writeRegister_ok (mt (slverrCause_register ht).mpr hc)
  · rw [hx, writeDbuf, if_neg (mt (slverrCause_dbuf ht hw).mpr hc)]
    exact ⟨_, rfl, rfl⟩
  · refine absurd ?_ hc
    cases ht : target (accessAddr h) (accessSize h) with
    | none => exact slverrCause_of_target_none ht
    | some r => exact slverrCause_write_other ht hw (fun hr => hregs (hr ▸ ht)) fun hr => hdbuf (hr ▸ ht)

end Sys2Proof.Machine
end

section
/-! PROOFS. The statements of 60_exceptions.md. -/

namespace Sys2Proof.Proofs

open Sys2Proof.Machine Sys2Proof.Claims

/-- Settles O25: INTERNAL is written only by a completion step, and `complete_errcode` says that none writes it. -/
theorem noStepRaisesInternal : Obligations.NoStepRaisesInternal := by
  intro s t hinv hstep hcode
  cases step_effect hstep with
  | idle | read | refused | cfg | ien | dbuf => exact hcode
  | completed i hnext hb hr => exact (complete_errcode (inv_setScript hinv (restOf s)) hb hr).symm.trans hcode
  | hardReset rest hs => cases hcode
  | status w rest hs =>
    have hkept := (writeStatus_errcode w _).symm.trans hcode
    split_ifs at hkept
    exact hkept
  | softReset rest hs => cases (softReset_errcode (s.setScript rest)).symm.trans hcode
  | illegal w e rest hs hb he hd => cases hcode
  | taken i rest hs hi hb he =>
    by_contra hne
    exact take_errcode_ne_internal (s := s.setScript rest) i hne hcode

/-- Settles O8: the word is decoded, and the first check it fails gives the code. -/
theorem takenErrorsAreRecordedExactly : Obligations.TakenErrorsAreRecordedExactly := by
  intro s w rest hs hb he
  refine ⟨fun hw => ?_, fun i code hd hraises => ?_⟩
  · obtain ⟨e, hd⟩ := (nineWordsAndNoOtherDecode.1 w).2 hw
    exact (step_submission hs).trans (submit_illegal (s := s.setScript rest) hb he hd)
  · obtain rfl := eq_encode_of_decode hd
    rw [step_taken (ne_softReset_of_raises hraises) he hb hs, take_raises (raises_setScript hraises rest),
      opcode_of_encode]
    rfl

/-- Settles O14: PLACE's first check counts the cells of `orderOf`. -/
theorem placeRaisesInternal : Obligations.PlaceRaisesInternal := by
  intro s hb hop hv hlen
  have hbody : bodyOf .place s =
      .internal (opcode .place) (scrambleMatrix s.draws s.side (s.setDraws (s.draws + 1))) := by
    rcases bodyPlace_cases s with ⟨hcount, -⟩ | ⟨-, hx⟩
    · exact absurd (zigzag_loadGrid s ▸ hcount) hlen
    · exact hx
  have hexec : exec .place s =
      .next (raiseInternal (opcode .place) (scrambleMatrix s.draws s.side (s.setDraws (s.draws + 1)))) := by
    rw [exec_running (i := .place) hb (running_eq_some.mpr ⟨by decide, hop⟩), complete, hbody]
  have hrun : s.curOp ≠ opcode .run := by rw [hop]; decide
  refine ⟨_, hexec, ?_, fun a ha => readRam_scrambleSymbol (s := s.setDraws (s.draws + 1)) hv s.draws ha⟩
  exact raiseInternal_of_not_run (s := scrambleMatrix s.draws s.side (s.setDraws (s.draws + 1))) hrun _

/-- Settles O28: of the effects of a step only these touch ERR; a STATUS write clears it by bit 2. -/
theorem onlyTheseEventsChangeErr : Obligations.OnlyTheseEventsChangeErr := by
  intro s t hstep
  constructor
  · intro herr hclear
    cases step_effect hstep with
    | status w rest hs =>
      have hkept := (writeStatus_err w (s.setScript rest)).symm.trans hclear
      exact .inl ⟨w, rest, hs, by simpa [herr] using hkept⟩
    | softReset rest hs => exact .inr (.inl ⟨rest, hs⟩)
    | hardReset rest hs => exact .inr (.inr ⟨rest, hs⟩)
    | idle | read | refused | cfg | ien | dbuf => exact absurd (herr.symm.trans hclear) (by decide)
    | completed i hnext hb hr =>
      have hkept := (complete_err (i := i) (s := s.setScript (restOf s)) herr).symm.trans hclear
      exact absurd hkept (by decide)
    | illegal w e rest hs hb he hd => exact absurd (herr.symm.trans he) (by decide)
    | taken i rest hs hi hb he => exact absurd (herr.symm.trans he) (by decide)
  · intro hno hset
    cases step_effect hstep with
    | completed i hnext hb hr => exact .inr ⟨hnext, hb⟩
    | illegal w e rest hs hb he hd => exact .inl ⟨w, rest, hs, hb⟩
    | taken i rest hs hi hb he => exact .inl ⟨_, rest, hs, hb⟩
    | idle | read | refused | cfg | ien | dbuf => exact absurd (hno.symm.trans hset) (by decide)
    | hardReset rest hs => cases hset
    | status w rest hs =>
      have hkept := (writeStatus_err w (s.setScript rest)).symm.trans hset
      simp [hno] at hkept
    | softReset rest hs => cases (softReset_err (s.setScript rest)).symm.trans hset

/-- Settles O29: a read by the data it has, a write by the region it reaches. -/
theorem slverrExactlyForItsCauses : Obligations.SlverrExactlyForItsCauses := by
  intro s h rest hs
  rw [step_host hs]
  cases hw : isWrite h with
  | false =>
    refine ⟨_, hostAccess_read hw _, fun hc => ?_, fun hc => ?_⟩
    · rw [hostRead_eq, (hostReadData_eq_none_iff hw (s.setScript rest)).mpr hc]
      rfl
    · obtain ⟨v, hv⟩ := Option.ne_none_iff_exists'.mp (mt (hostReadData_eq_none_iff hw (s.setScript rest)).mp hc)
      exact ⟨some v, by rw [hostRead_eq, hv]; rfl, by simp⟩
  | true =>
    by_cases hc : SlverrCause s h
    · exact ⟨_, hostAccess_write_refused (s := s.setScript rest) hw hc, fun _ => rfl, absurd hc⟩
    · obtain ⟨t, ht, hok⟩ := hostAccess_write_ok (s := s.setScript rest) hw hc
      exact ⟨t, ht, fun hc' => absurd hc' hc, fun _ => ⟨none, hok, by simp⟩⟩

/-- Settles O39: the other effects of a step keep DONE, ERR and IEN. -/
theorem onlyTheseEventsChangeIrq : Obligations.OnlyTheseEventsChangeIrq := by
  intro s t hstep hne
  cases step_effect hstep with
  | completed i hnext hb hr => exact .inl ⟨hnext, hb⟩
  | hardReset rest hs => exact .inr (.inl ⟨rest, hs⟩)
  | status w rest hs | ien w rest hs => exact .inr (.inr ⟨_, w, rest, hs, by decide⟩)
  | softReset rest hs | illegal _ _ rest hs | taken _ rest hs => exact .inr (.inr ⟨_, _, rest, hs, by decide⟩)
  | idle | read | refused | cfg | dbuf => exact absurd rfl hne

end Sys2Proof.Proofs
end

section
/-! PROOFS. What the host can reach while a command runs (70_reset_and_hazards.md R142), and what the reset state shows
(R138). -/

namespace Sys2Proof.Machine

open Sys2Proof.Claims

/-! ### Accesses while BUSY -/

/-- A step that performs a host access is no opportunity of the engine. -/
theorem not_engineNext_of_host {s : State} {h : HostAccess} {rest : List Event} (hs : s.script = .host h :: rest) :
    ¬ EngineNext s := by
  rintro (hnil | ⟨rest', hengine⟩)
  · cases hs.symm.trans hnil
  · cases hs.symm.trans hengine

/-- A STATUS write reaches DONE, ERR, ERRCODE and ERRINFO only (R25). -/
theorem writeStatus_frame (w : Word) (s : State) : ∃ done err errcode errinfo, writeStatus w s =
    { s with
      status := { s.status with done := done, err := err, errcode := errcode }
      errinfo := errinfo } := by
  unfold writeStatus
  split_ifs <;> exact ⟨_, _, _, _, rfl⟩

/-! ### The reset state -/

theorem reset_cfg_not_valid : ¬ State.reset.cfg.valid = true := by decide

/-- Every register of 0x004 to 0x020 reads 0 after reset, GEOM0 to GEOM2 because CFG is not valid (R138). -/
theorem reset_registerWord :
    ∀ off ∈ [0x004, 0x008, 0x00C, 0x010, 0x014, 0x018, 0x01C, 0x020], State.reset.registerWord off = 0 := by
  obtain ⟨hgeom0, hgeom1, hgeom2⟩ := geom_invalid reset_cfg_not_valid
  simp only [List.forall_mem_cons, List.not_mem_nil, false_imp_iff, implies_true, and_true]
  exact ⟨rfl, rfl, rfl, rfl, rfl, hgeom0, hgeom1, hgeom2⟩

/-- With nothing listed in the storage each byte is POWER_ON_RAM (R11). -/
theorem readRam_of_mem_nil {s : State} (h : s.mem = []) (a : Nat) : s.readRam a = Config.powerOnRam s.powerOns a := by
  rw [State.readRam, h]
  rfl

/-- While CFG is not valid the MATRIX window reads 0 (R51). -/
theorem windowByte_invalid {s : State} (h : ¬ s.cfg.valid = true) (a : Nat) : s.windowByte a = 0 :=
  if_neg fun hin => h hin.1

/-- Hardware reset is performed in every state (R138). -/
theorem step_hardReset {s : State} {rest : List Event} (hs : s.script = .hardReset :: rest) :
    step s = .next (hardReset (s.setScript rest)) := step_cons hs

end Sys2Proof.Machine
end

section
/-! PROOFS. The statements of 70_reset_and_hazards.md. -/

namespace Sys2Proof.Proofs

open Sys2Proof.Machine Sys2Proof.Claims

/-- Settles O31: what a host access may do while BUSY is to read, to be refused, or to write STATUS or IEN; every other
effect of a step needs the engine, the reset input, BUSY = 0 or the SOFT_RESET word. -/
theorem busyProtectsTheRunningCommand : Obligations.BusyProtectsTheRunningCommand := by
  intro s t h rest hs hb hword hstep
  cases step_effect hstep with
  | read | refused | ien => exact ⟨rfl, rfl, rfl, rfl, rfl, rfl, rfl, hb, rfl, rfl⟩
  | status w rest' hs' =>
    obtain ⟨done, err, errcode, errinfo, hwrite⟩ := writeStatus_frame w (s.setScript rest')
    rw [hwrite]
    exact ⟨rfl, rfl, rfl, rfl, rfl, rfl, rfl, hb, rfl, rfl⟩
  | idle hnext | completed i hnext => exact absurd hnext (not_engineNext_of_host hs)
  | hardReset rest' hs' => cases hs.symm.trans hs'
  | softReset rest' hs' => exact absurd (List.cons.inj (hs.symm.trans hs')).1 hword
  | cfg w rest' hs' hnot => cases hb.symm.trans hnot
  | dbuf a rest' hs' hw hlo hhi hnot => cases hb.symm.trans hnot
  | illegal w e rest' hs' hnot => cases hb.symm.trans hnot
  | taken i rest' hs' hi hnot => cases hb.symm.trans hnot

/-- Settles O20: the storage lists nothing, and CFG after reset is not valid. -/
theorem resetValues : Obligations.ResetValues :=
  ⟨rfl, reset_registerWord, by decide, rfl, rfl, readRam_of_mem_nil rfl, windowByte_invalid reset_cfg_not_valid,
    rfl, rfl, rfl, rfl⟩

/-- Settles O21: the new state is `hardReset`'s, with nothing listed in its storage. -/
theorem hardResetFromAnyState : Obligations.HardResetFromAnyState :=
  fun _ _ hs => ⟨_, step_hardReset hs, rfl, readRam_of_mem_nil rfl⟩

/-- Settles O22: at IDLE with nothing running the storage's form, the flags and the scores decide the invariant. -/
theorem resetMeetsTheInvariant : Obligations.ResetMeetsTheInvariant :=
  State.inv_of_idle State.reset_mem_wf reset_flagsOk reset_scoresOk rfl rfl

end Sys2Proof.Proofs
end
